-- ==== Sys2Proof/Word.lean ====
section
/-! DEFINITION. The word widths of the block: the lanes and the attribute byte (8 bits), and the two 40-bit port words. -/

namespace Sys2Proof

/-- The attribute byte (R7, R26): "one 8-bit unsigned value". -/
abbrev Byte := BitVec 8

/-- A lane of a port word (R8, R61): `OPW` = 8 bits, wide enough to carry a number that does not fit its sub-field. -/
abbrev Lane := BitVec 8

/-- The request word `REQ[39:0]` (R60); bit 0 is the least significant bit (R9). -/
abbrev ReqWord := BitVec 40

/-- The response word `RSP[39:0]` (R70). -/
abbrev RspWord := BitVec 40

end Sys2Proof
end

