-- ==== Sys2Proof/Syntax.lean ====
section
/-! DEFINITION. The data model (directions, symbols, attribute values, error kinds), the seven operations with their operands
(the one inductive `Instr`), and the abstract syntax of the textual form of a request (R77). -/

namespace Sys2Proof

/-- The direction tag (R27). -/
inductive Direction
  | entityToCenter
  | centerToEntity
deriving DecidableEq, Repr

/-- The four mode symbols (R28), entity-to-center only. -/
inductive ModeSymbol
  | default
  | datagram
  | forward
  | storeAndForward
deriving DecidableEq, Repr

/-- The eight type symbols by name (R34): `default` is one symbol of both directions' tables. -/
inductive TypeSymbol
  | default
  | esmeDeliveryAck
  | esmeUserAck
  | smeDeliveryReceipt
  | smeDeliveryAck
  | smeUserAck
  | conversationAbort
  | intermediate
deriving DecidableEq, Repr

/-- The four feature symbols (R32), shared by both directions. -/
inductive FeatureSymbol
  | none
  | udhi
  | replyPath
  | udhiAndReplyPath
deriving DecidableEq, Repr

/-- One member of an attribute value (R33, R61): a raw number in its 8-bit lane, "accompanied by an optional resolved symbol". -/
structure Member (S : Type) where
  raw : Lane
  sym : Option S
deriving DecidableEq, Repr

/-- The attribute value (R33): "a direction-tagged triple (mode, type, feature)". A value presented to ENCODE need not satisfy
R33's invariant, so a lane may hold a number that does not fit and the feature may come without a symbol. -/
structure AttributeValue where
  dir     : Direction
  mode    : Member ModeSymbol
  type    : Member TypeSymbol
  feature : Member FeatureSymbol
deriving DecidableEq, Repr

/-- The three errors (R140, R71). `outOfRange`: PACK and ENCODE (R141). `invalidForDirection`: ENCODE (R142). `illegalOp`: the
decoder, operation code 7 (R143). -/
inductive ErrorKind
  | outOfRange
  | invalidForDirection
  | illegalOp
deriving DecidableEq, Repr

/-- The seven operations (R64), each with the operands its format reads (R62). The raw operand of a RESOLVE operation is exactly
as wide as the sub-field (R62, D8). ENCODE's operand is the attribute value whose direction tag is also the direction argument
(R115, D9); its members keep their lane beside a symbol, as the request word carries both (R61). Log entry 11. -/
inductive Instr
  | pack (mode type feature : Lane)
  | unpack (byte : Byte)
  | resolveType (dir : Direction) (raw : BitVec 4)
  | resolveMode (dir : Direction) (raw : BitVec 2)
  | resolveFeature (raw : BitVec 2)
  | encode (value : AttributeValue)
  | decode (dir : Direction) (byte : Byte)
deriving DecidableEq, Repr

/-- `<opd>` of R77: a raw number or a symbol's name. -/
inductive AsmOperand (S : Type)
  | num (n : Nat)
  | sym (s : S)
deriving DecidableEq, Repr

/-- The textual form of a request (R77) as abstract syntax; numbers are as written, so they may be too large for their field. A
member left out of the braces is `none`. -/
inductive AsmCall
  | pack (mode type feature : Nat)
  | unpack (byte : Nat)
  | resolveType (dir : Direction) (raw : Nat)
  | resolveMode (dir : Direction) (raw : Nat)
  | resolveFeature (raw : Nat)
  | encode (dir : Direction) (mode : Option (AsmOperand ModeSymbol)) (type : Option (AsmOperand TypeSymbol))
      (feature : Option (AsmOperand FeatureSymbol))
  | decode (dir : Direction) (byte : Nat)
deriving DecidableEq, Repr

end Sys2Proof
end

