-- ==== Sys2Proof/Machine/Geometry.lean ====
section
/-! DEFINITION. The field geometry of the attribute byte (R7, R26, R90): width, offset, mask and limit of each sub-field, and the
one packing and extraction logic both components share (R13). -/

namespace Sys2Proof.Machine

/-- The three sub-fields of the attribute byte (R26). -/
inductive SubField
  | mode
  | type
  | feature
deriving DecidableEq, Repr

/-- `w_k` (R90). -/
def subWidth : SubField → Nat
  | .mode => 2
  | .type => 4
  | .feature => 2

/-- `o_k` (R90): the position of the lowest bit. -/
def subOffset : SubField → Nat
  | .mode => 0
  | .type => 2
  | .feature => 6

/-- `L_k` (R90): the first number that does not fit. -/
def subLimit (k : SubField) : Nat := 1 <<< subWidth k

/-- `M_k` (R90). -/
def subMask (k : SubField) : Byte := BitVec.ofNat 8 ((subLimit k - 1) <<< subOffset k)

/-- Extraction of a sub-field (R90, R92): mask first, then shift (R96). -/
def extractSub (k : SubField) (byte : Byte) : Byte := (byte &&& subMask k) >>> subOffset k

/-- Insertion of a sub-field (R90); `packByte` applies it to numbers that fit. -/
def insertSub (k : SubField) (v : Lane) : Byte := v <<< subOffset k

/-- Whether a raw number fits its sub-field (R90, R91). -/
def fitsSub (k : SubField) (v : Lane) : Bool := v.toNat < subLimit k

/-- The byte of three numbers (R91): the OR of the three insertions. -/
def packByte (m t f : Lane) : Byte := insertSub .feature f ||| insertSub .type t ||| insertSub .mode m

/-- The raw mode of a byte as the 2-bit index of the mode tables (R45, R92). -/
def byteMode (byte : Byte) : BitVec 2 := (extractSub .mode byte).setWidth 2

/-- The raw type of a byte as the 4-bit index of the type tables (R45, R92). -/
def byteType (byte : Byte) : BitVec 4 := (extractSub .type byte).setWidth 4

/-- The raw feature of a byte as the 2-bit index of the feature table (R45, R92). -/
def byteFeature (byte : Byte) : BitVec 2 := (extractSub .feature byte).setWidth 2

end Sys2Proof.Machine
end

