-- ==== Sys2Proof/Decode.lean ====
section
/-! DEFINITION. The encoding (R60 to R69): bit fields of a port word, direction and symbol codes, the decoder (total, refusing
operation code 7 by name) and, after it, the encoder. -/

namespace Sys2Proof

/-! ### Bit fields of a 40-bit port word -/

/-- The value `v` at bits `lo` and up of a port word, every other bit 0. -/
def putBits {n : Nat} (lo : Nat) (v : BitVec n) : BitVec 40 := v.setWidth 40 <<< lo

/-- The field layout that the request word (R61) and the response word (R70) share: `low` is bits 2:0, then `dir`, the three
`_sv` bits, the lanes `a`, `b`, `c` and the three symbol ids; bits 7 and 39 are 0. -/
def portWord (low : BitVec 3) (dir modeSv typeSv featSv : BitVec 1) (a b c : Lane)
    (modeSym : BitVec 2) (typeSym : BitVec 3) (featSym : BitVec 2) : BitVec 40 :=
  putBits 0 low ||| putBits 3 dir ||| putBits 4 modeSv ||| putBits 5 typeSv ||| putBits 6 featSv
  ||| putBits 8 a ||| putBits 16 b ||| putBits 24 c
  ||| putBits 32 modeSym ||| putBits 34 typeSym ||| putBits 37 featSym

/-! ### The fields of the request word (R61) -/

def reqOp (w : ReqWord) : BitVec 3 := w.extractLsb' 0 3
def reqDir (w : ReqWord) : BitVec 1 := w.extractLsb' 3 1
def reqModeSv (w : ReqWord) : BitVec 1 := w.extractLsb' 4 1
def reqTypeSv (w : ReqWord) : BitVec 1 := w.extractLsb' 5 1
def reqFeatSv (w : ReqWord) : BitVec 1 := w.extractLsb' 6 1
def reqA (w : ReqWord) : Lane := w.extractLsb' 8 8
def reqB (w : ReqWord) : Lane := w.extractLsb' 16 8
def reqC (w : ReqWord) : Lane := w.extractLsb' 24 8
def reqModeSym (w : ReqWord) : BitVec 2 := w.extractLsb' 32 2
def reqTypeSym (w : ReqWord) : BitVec 3 := w.extractLsb' 34 3
def reqFeatSym (w : ReqWord) : BitVec 2 := w.extractLsb' 37 2

/-! ### Codes of the direction and ids of the symbols (R65 to R68) -/

/-- The direction of a code (R65). -/
def dirOfCode (c : BitVec 1) : Direction :=
  if c = 0#1 then .entityToCenter else .centerToEntity

/-- The code of a direction (R65). -/
def dirCode : Direction → BitVec 1
  | .entityToCenter => 0
  | .centerToEntity => 1

/-- The mode symbol of an id (R66): all four ids are defined. -/
def modeOfId (id : BitVec 2) : ModeSymbol :=
  match id.toNat with
  | 0 => .default
  | 1 => .datagram
  | 2 => .forward
  | _ => .storeAndForward

/-- The id of a mode symbol (R66). -/
def modeId : ModeSymbol → BitVec 2
  | .default => 0
  | .datagram => 1
  | .forward => 2
  | .storeAndForward => 3

/-- The type symbol of an id (R67): all eight ids are defined. -/
def typeOfId (id : BitVec 3) : TypeSymbol :=
  match id.toNat with
  | 0 => .default
  | 1 => .esmeDeliveryAck
  | 2 => .esmeUserAck
  | 3 => .smeDeliveryReceipt
  | 4 => .smeDeliveryAck
  | 5 => .smeUserAck
  | 6 => .conversationAbort
  | _ => .intermediate

/-- The id of a type symbol (R67). -/
def typeId : TypeSymbol → BitVec 3
  | .default => 0
  | .esmeDeliveryAck => 1
  | .esmeUserAck => 2
  | .smeDeliveryReceipt => 3
  | .smeDeliveryAck => 4
  | .smeUserAck => 5
  | .conversationAbort => 6
  | .intermediate => 7

/-- The feature symbol of an id (R68): all four ids are defined. -/
def featOfId (id : BitVec 2) : FeatureSymbol :=
  match id.toNat with
  | 0 => .none
  | 1 => .udhi
  | 2 => .replyPath
  | _ => .udhiAndReplyPath

/-- The id of a feature symbol (R68). -/
def featId : FeatureSymbol → BitVec 2
  | .none => 0
  | .udhi => 1
  | .replyPath => 2
  | .udhiAndReplyPath => 3

/-- An optional symbol from its `_sv` bit and its id field (R61): the id is ignored when the bit is 0. -/
def symOfBits {S : Type} {n : Nat} (ofId : BitVec n → S) (sv : BitVec 1) (id : BitVec n) : Option S :=
  if sv = 1#1 then some (ofId id) else none

/-- The `_sv` bit of an optional symbol (R61, R70). -/
def svBit {S : Type} (sym : Option S) : BitVec 1 :=
  match sym with
  | some _ => 1
  | none => 0

/-- The id field of an optional symbol: 0 when there is none (R70, R77). -/
def idBits {S : Type} {n : Nat} (id : S → BitVec n) (sym : Option S) : BitVec n :=
  match sym with
  | some s => id s
  | none => 0

/-! ### The decoder -/

/-- ENCODE's operand (R61, R115): the three triples (lane, `_sv`, `_sym`) and the direction. -/
def reqValue (w : ReqWord) : AttributeValue where
  dir := dirOfCode (reqDir w)
  mode := ⟨reqA w, symOfBits modeOfId (reqModeSv w) (reqModeSym w)⟩
  type := ⟨reqB w, symOfBits typeOfId (reqTypeSv w) (reqTypeSym w)⟩
  feature := ⟨reqC w, symOfBits featOfId (reqFeatSv w) (reqFeatSym w)⟩

/-- The decoder (R62, R64, R81): total, and each format reads only its own fields (R63). Operation code 7 is IllegalOp, before any
operand is looked at (R74, R143). -/
def decodeReq (w : ReqWord) : Except ErrorKind Instr :=
  match (reqOp w).toNat with
  | 0 => .ok (.pack (reqA w) (reqB w) (reqC w))
  | 1 => .ok (.unpack (reqA w))
  | 2 => .ok (.resolveType (dirOfCode (reqDir w)) ((reqB w).setWidth 4))
  | 3 => .ok (.resolveMode (dirOfCode (reqDir w)) ((reqA w).setWidth 2))
  | 4 => .ok (.resolveFeature ((reqC w).setWidth 2))
  | 5 => .ok (.encode (reqValue w))
  | 6 => .ok (.decode (dirOfCode (reqDir w)) (reqA w))
  | _ => .error .illegalOp

/-- The bits of a request word that its operation reads (R62, R69); every other bit is ignored (R63). ENCODE reads, of each
member, the symbol id or the lane, as its `_sv` bit says. -/
def readMask (w : ReqWord) : ReqWord :=
  match (reqOp w).toNat with
  | 0 => 0x00FFFFFF07
  | 1 => 0x000000FF07
  | 2 => 0x00000F000F
  | 3 => 0x000000030F
  | 4 => 0x0003000007
  | 5 =>
    0x000000007F
    ||| (if reqModeSv w = 1#1 then 0x0300000000 else 0x000000FF00)
    ||| (if reqTypeSv w = 1#1 then 0x1C00000000 else 0x0000FF0000)
    ||| (if reqFeatSv w = 1#1 then 0x6000000000 else 0x00FF000000)
  | 6 => 0x000000FF0F
  | _ => 0x0000000007

/-- The decoder on a row of spec/opcode_table.json: the bits above `nbits` are 0, and no request is longer than 40 bits (R60). Log
entry 8. -/
def decodeTableWord (nbits w : Nat) : Option Instr :=
  if nbits ≤ 40 then
    match decodeReq (BitVec.ofNat 40 (w % 2 ^ nbits)) with
    | .ok i => some i
    | .error _ => none
  else none

/-! ### The encoder -/

/-- The operation code (R64). -/
def opCode : Instr → BitVec 3
  | .pack _ _ _ => 0
  | .unpack _ => 1
  | .resolveType _ _ => 2
  | .resolveMode _ _ => 3
  | .resolveFeature _ => 4
  | .encode _ => 5
  | .decode _ _ => 6

/-- The request word of an instruction, from the same tables; every bit the format does not read is 0 (R63, R77), except that the
lane beside a supplied symbol is kept as the instruction holds it (R61). Log entry 11. -/
def encodeReq (i : Instr) : ReqWord :=
  match i with
  | .pack m t f => portWord (opCode i) 0 0 0 0 m t f 0 0 0
  | .unpack b => portWord (opCode i) 0 0 0 0 b 0 0 0 0 0
  | .resolveType d r => portWord (opCode i) (dirCode d) 0 0 0 0 (r.setWidth 8) 0 0 0 0
  | .resolveMode d r => portWord (opCode i) (dirCode d) 0 0 0 (r.setWidth 8) 0 0 0 0 0
  | .resolveFeature r => portWord (opCode i) 0 0 0 0 0 0 (r.setWidth 8) 0 0 0
  | .encode v =>
    portWord (opCode i) (dirCode v.dir) (svBit v.mode.sym) (svBit v.type.sym) (svBit v.feature.sym)
      v.mode.raw v.type.raw v.feature.raw
      (idBits modeId v.mode.sym) (idBits typeId v.type.sym) (idBits featId v.feature.sym)
  | .decode d b => portWord (opCode i) (dirCode d) 0 0 0 b 0 0 0 0 0

end Sys2Proof
end

