-- ==== Sys2Proof/Machine/Flags.lean ====
section
/-! DEFINITION. The status code (R71) and the response's flag fields (R23). The three symbol-present bits are `svBit` of the
payload's optional symbols (Sys2Proof/Decode.lean), since request and response share them. No flag is stored and none is sticky. -/

namespace Sys2Proof.Machine

/-- `status` 0, OK (R71). -/
def okCode : BitVec 2 := 0

/-- The status code of an error (R71, R140). -/
def errorCode : ErrorKind → BitVec 2
  | .outOfRange => 1
  | .invalidForDirection => 2
  | .illegalOp => 3

end Sys2Proof.Machine
end

