-- ==== Sys2Proof/Machine/Response.lean ====
section
/-! DEFINITION. What an operation answers, and the response word that carries it (R70 to R73). -/

namespace Sys2Proof.Machine

/-- The payload of a successful response (R70, R72). A field that an operation does not name is 0 or absent: "Every field of the
response not listed for the operation is 0". -/
structure Payload where
  dir     : BitVec 1 := 0
  a       : Lane := 0
  b       : Lane := 0
  c       : Lane := 0
  modeSym : Option ModeSymbol := none
  typeSym : Option TypeSymbol := none
  featSym : Option FeatureSymbol := none
deriving DecidableEq, Repr

/-- The answer of an operation, in the form R73 asks for: a payload, or an error code with none. -/
inductive Response
  | ok (payload : Payload)
  | error (kind : ErrorKind)
deriving DecidableEq, Repr

/-- The word of a successful response (R70): bits 2, 7 and 39 are 0, and a symbol id is 0 when its `_sv` bit is 0. -/
def payloadWord (p : Payload) : RspWord :=
  portWord (okCode.setWidth 3) p.dir (svBit p.modeSym) (svBit p.typeSym) (svBit p.featSym) p.a p.b p.c
    (idBits modeId p.modeSym) (idBits typeId p.typeSym) (idBits featId p.featSym)

/-- The word of a failed response (R73): the status code, and bits 39:2 as the free value `free`. -/
def errorWord (e : ErrorKind) (free : BitVec 38) : RspWord :=
  putBits 0 (errorCode e) ||| putBits 2 free

/-! ### The fields of the response word (R70) -/

def rspStatus (w : RspWord) : BitVec 2 := w.extractLsb' 0 2
def rspDir (w : RspWord) : BitVec 1 := w.extractLsb' 3 1
def rspModeSv (w : RspWord) : BitVec 1 := w.extractLsb' 4 1
def rspTypeSv (w : RspWord) : BitVec 1 := w.extractLsb' 5 1
def rspFeatSv (w : RspWord) : BitVec 1 := w.extractLsb' 6 1
def rspA (w : RspWord) : Lane := w.extractLsb' 8 8
def rspB (w : RspWord) : Lane := w.extractLsb' 16 8
def rspC (w : RspWord) : Lane := w.extractLsb' 24 8
def rspModeSym (w : RspWord) : BitVec 2 := w.extractLsb' 32 2
def rspTypeSym (w : RspWord) : BitVec 3 := w.extractLsb' 34 3
def rspFeatSym (w : RspWord) : BitVec 2 := w.extractLsb' 37 2

/-- The attribute value a DECODE response carries (R33, R70). -/
def rspValue (w : RspWord) : AttributeValue where
  dir := dirOfCode (rspDir w)
  mode := ⟨rspA w, symOfBits modeOfId (rspModeSv w) (rspModeSym w)⟩
  type := ⟨rspB w, symOfBits typeOfId (rspTypeSv w) (rspTypeSym w)⟩
  feature := ⟨rspC w, symOfBits featOfId (rspFeatSv w) (rspFeatSym w)⟩

end Sys2Proof.Machine
end

