-- ==== Sys2Proof/Config.lean ====
section
/-! DEFINITION. The free values: the two values the spec leaves open. The block has no parameter (R8, 93 part 1: "Nothing is a
`parameter`"), so nothing else stands here. Each free value is an opaque constant applied to the draw counter of State and to the
word on the request port, so no proof can see a value of it. What a draw depends on is the model's choice: log entry 15. -/

namespace Sys2Proof

/-- Bits 39:2 of a failed response (R73, U1: `any value`), by the number of draws before it and the request word. Log entries 4 and
15. -/
opaque Config.freePayload : Nat → ReqWord → BitVec 38

/-- The whole response word while no request is presented (R79, R172, U2: `any value`), by the number of draws before it and the word
on `req`. Log entries 3 and 15. -/
opaque Config.freeIdleRsp : Nat → ReqWord → RspWord

end Sys2Proof
end

