-- ==== Sys2Proof/Machine/State.lean ====
section
/-! DEFINITION. The state: the four ports (R36) and the host's side of them. The block itself holds nothing (R20 to R25): no field
here is storage of the block, and the answer to a request reads none of them but the presented word (R46). Log entry 1. -/

namespace Sys2Proof.Machine

/-- What the host drives on the two input ports for one step (R36): `valid` on `req_valid`, `word` on `req`. -/
structure Drive where
  valid : Bool
  word  : ReqWord
deriving DecidableEq, Repr

/-- The machine's state. -/
structure State where
  /-- The model's own: what the host will drive in the coming steps, next first (R37, R178). Log entry 2. -/
  host     : List Drive
  /-- Port `req_valid`, in, 1 bit (R36). -/
  reqValid : Bool
  /-- Port `req`, in, 40 bits (R36, R61). -/
  req      : ReqWord
  /-- Port `rsp_valid`, out, 1 bit (R36, R79). -/
  rspValid : Bool
  /-- Port `rsp`, out, 40 bits (R36, R70). -/
  rsp      : RspWord
  /-- The model's own: how many free values have been drawn; it indexes `Config`'s free values. Log entries 4 and 15. -/
  draws    : Nat
deriving DecidableEq, Repr

/-- Faults: none. Nobody raises one, since "Nothing in this hardware is `stuck`: every request word gets a response" (93 part 1,
R81). The three errors of R140 are responses, so they are next states. Log entry 7. -/
inductive Fault
deriving DecidableEq, Repr

/-- Refusals. -/
inductive Refusal
  /-- An operation without a meaning. Nobody raises it: every arm of `exec` has its meaning. Safe, had it been raised. -/
  | notModelled (mnemonic : String)
deriving DecidableEq, Repr

/-- The machine after power-up (R170, R172): no request is presented, so `rsp_valid` is 0 and `rsp` is a free value. The spec gives
`req` no value there, and 0 is the model's own. Log entry 5. -/
def State.reset : State where
  host := []
  reqValid := false
  req := 0
  rspValid := false
  rsp := Config.freeIdleRsp 0 0
  draws := 1

end Sys2Proof.Machine
end

