-- ==== Sys2Proof/Machine/Ops.lean ====
section
/-! DEFINITION. The named operations on the ports: what the host drives, a successful response, an error, no request. The block has
no registers and no memory (R21, R40), so there is no other operation on State. -/

namespace Sys2Proof.Machine

/-- The host drives the input ports for this step (R36); a host with nothing left to drive presents no request (R178). Log entries
2 and 6. -/
def present (s : State) : State :=
  match s.host with
  | [] => { s with reqValid := false }
  | d :: rest => { s with host := rest, reqValid := d.valid, req := d.word }

/-- A successful response (R70, R72). An operation serves a presented request, so `rsp_valid` is 1 (R79); log entry 14. -/
def drivePayload (p : Payload) (s : State) : State :=
  { s with rspValid := true, rsp := payloadWord p }

/-- Taking an error, the one shared operation (R147): its whole effect is the response, with `rsp_valid` = 1, the status code, and
bits 39:2 a free value (R73). Nothing is saved, no mode changes and no control is transferred, and there is no return from it
(R149). DESIGN CHOICE: the spec puts no law on those bits (U1), and here they depend on the draw counter and the word on `req` alone,
so two failures with both the same carry equal bits (log entry 15). -/
def raiseError (e : ErrorKind) (s : State) : State :=
  { s with rspValid := true, rsp := errorWord e (Config.freePayload s.draws s.req), draws := s.draws + 1 }

/-- The response port carries the answer of an operation. -/
def respond (r : Response) (s : State) : State :=
  match r with
  | .ok p => drivePayload p s
  | .error e => raiseError e s

/-- No request is presented (R172): `rsp_valid` is 0 and the response word is a free value. Log entries 3 and 15. -/
def idle (s : State) : State :=
  { s with rspValid := false, rsp := Config.freeIdleRsp s.draws s.req, draws := s.draws + 1 }

end Sys2Proof.Machine
end

