-- ==== Sys2Proof/Machine/Codec.lean ====
section
/-! DEFINITION. The first component, the bitfield byte codec: PACK (R91) and UNPACK (R92). Neither takes a direction or a symbol
table (R13, R98). -/

namespace Sys2Proof.Machine

/-- PACK's answer (R91), shared with ENCODE, which delegates to it (R115). A number that does not fit is refused and never
truncated (R95). -/
def packResponse (m t f : Lane) : Response :=
  if fitsSub .mode m && fitsSub .type t && fitsSub .feature f then .ok { a := packByte m t f }
  else .error .outOfRange

/-- UNPACK's answer (R92): total, no error case. -/
def unpackResponse (byte : Byte) : Response :=
  .ok { a := extractSub .mode byte, b := extractSub .type byte, c := extractSub .feature byte }

/-- PACK (R91). -/
def execPack (mode type feature : Lane) (s : State) : Host.Outcome State Fault Refusal :=
  .next (respond (packResponse mode type feature) s)

/-- UNPACK (R92). -/
def execUnpack (byte : Byte) (s : State) : Host.Outcome State Fault Refusal :=
  .next (respond (unpackResponse byte) s)

end Sys2Proof.Machine
end

