-- ==== Sys2Proof/Machine/Tables.lean ====
section
/-! DEFINITION. The constant symbol tables (R25, R28, R29, R30, R32) in the functional form of R110: symbol of a raw number,
membership of a symbol, raw number of a symbol. They are constants of the definition, not state (R25, R48). -/

namespace Sys2Proof.Machine

/-- `mode_sym_of` (R110, R28): the center-to-entity mode table is empty. -/
def modeSymOf (d : Direction) (raw : BitVec 2) : Option ModeSymbol :=
  match d, raw.toNat with
  | .entityToCenter, 0 => some .default
  | .entityToCenter, 1 => some .datagram
  | .entityToCenter, 2 => some .forward
  | .entityToCenter, 3 => some .storeAndForward
  | _, _ => none

/-- `type_sym_of` (R110, R29, R30): a reserved value has no symbol (R31, R123). -/
def typeSymOf (d : Direction) (raw : BitVec 4) : Option TypeSymbol :=
  match d, raw.toNat with
  | .entityToCenter, 0 => some .default
  | .entityToCenter, 2 => some .esmeDeliveryAck
  | .entityToCenter, 4 => some .esmeUserAck
  | .centerToEntity, 0 => some .default
  | .centerToEntity, 1 => some .smeDeliveryReceipt
  | .centerToEntity, 2 => some .smeDeliveryAck
  | .centerToEntity, 4 => some .smeUserAck
  | .centerToEntity, 6 => some .conversationAbort
  | .centerToEntity, 8 => some .intermediate
  | _, _ => none

/-- `feat_sym_of` (R110, R32): total, and the same for both directions. -/
def featSymOf (raw : BitVec 2) : FeatureSymbol :=
  match raw.toNat with
  | 0 => .none
  | 1 => .udhi
  | 2 => .replyPath
  | _ => .udhiAndReplyPath

/-- `mode_member` (R110): every mode symbol is in the entity-to-center table, none in the other. -/
def modeMember (d : Direction) (_ : ModeSymbol) : Bool :=
  d == .entityToCenter

/-- `type_member` (R110): membership is by name, not by number (R34). -/
def typeMember (d : Direction) (s : TypeSymbol) : Bool :=
  match s, d with
  | .default, _ => true
  | .esmeDeliveryAck, .entityToCenter => true
  | .esmeUserAck, .entityToCenter => true
  | .smeDeliveryReceipt, .centerToEntity => true
  | .smeDeliveryAck, .centerToEntity => true
  | .smeUserAck, .centerToEntity => true
  | .conversationAbort, .centerToEntity => true
  | .intermediate, .centerToEntity => true
  | _, _ => false

/-- `mode_code` (R110, R66). -/
def modeCode : ModeSymbol → BitVec 2
  | .default => 0
  | .datagram => 1
  | .forward => 2
  | .storeAndForward => 3

/-- `type_code` (R110, R67): two pairs of symbols share a code. -/
def typeCode : TypeSymbol → BitVec 4
  | .default => 0
  | .esmeDeliveryAck => 2
  | .esmeUserAck => 4
  | .smeDeliveryReceipt => 1
  | .smeDeliveryAck => 2
  | .smeUserAck => 4
  | .conversationAbort => 6
  | .intermediate => 8

/-- `feat_code` (R110, R68). -/
def featCode : FeatureSymbol → BitVec 2
  | .none => 0
  | .udhi => 1
  | .replyPath => 2
  | .udhiAndReplyPath => 3

end Sys2Proof.Machine
end

