-- ==== Sys2Proof/Machine/Operands.lean ====
section
/-! DEFINITION. The operand forms of ENCODE (R69, R114): each member is a symbol or a raw number. The operand forms of the other
operations are plain fields of the request word and are read by the decoder (R62). -/

namespace Sys2Proof.Machine

/-- `m_raw` (R114): the symbol wins, and the lane is then not read. -/
def modeRaw (m : Member ModeSymbol) : Lane :=
  match m.sym with
  | some s => (modeCode s).setWidth 8
  | none => m.raw

/-- `t_raw` (R114). -/
def typeRaw (m : Member TypeSymbol) : Lane :=
  match m.sym with
  | some s => (typeCode s).setWidth 8
  | none => m.raw

/-- `f_raw` (R114). -/
def featureRaw (m : Member FeatureSymbol) : Lane :=
  match m.sym with
  | some s => (featCode s).setWidth 8
  | none => m.raw

/-- Step 1 of ENCODE for one member (R115): a supplied symbol that is not in the direction's table is foreign; a raw number never
is (R142). -/
def foreignSym {S : Type} (member : S → Bool) (sym : Option S) : Bool :=
  match sym with
  | some s => !member s
  | none => false

end Sys2Proof.Machine
end

