-- ==== Sys2Proof/Machine/Directional.lean ====
section
/-! DEFINITION. The second component, the directional attribute variants: RESOLVE_TYPE (R111), RESOLVE_MODE (R112),
RESOLVE_FEATURE (R113), ENCODE (R115) and DECODE (R116). -/

namespace Sys2Proof.Machine

/-- RESOLVE_TYPE's answer (R111): absence is an answer, not an error. -/
def resolveTypeResponse (d : Direction) (raw : BitVec 4) : Response :=
  .ok { typeSym := typeSymOf d raw }

/-- RESOLVE_MODE's answer (R112). -/
def resolveModeResponse (d : Direction) (raw : BitVec 2) : Response :=
  .ok { modeSym := modeSymOf d raw }

/-- RESOLVE_FEATURE's answer (R113, R121): never absent. -/
def resolveFeatureResponse (raw : BitVec 2) : Response :=
  .ok { featSym := some (featSymOf raw) }

/-- Step 1 of ENCODE, the symbol validator (R115): some supplied symbol is not in the direction's table. A feature symbol is a
member for both directions (R110). -/
def foreignValue (v : AttributeValue) : Bool :=
  foreignSym (modeMember v.dir) v.mode.sym || foreignSym (typeMember v.dir) v.type.sym

/-- ENCODE's answer (R115): the validator first (R146), then PACK's logic on the raw numbers of R114. -/
def encodeResponse (v : AttributeValue) : Response :=
  if foreignValue v then .error .invalidForDirection
  else packResponse (modeRaw v.mode) (typeRaw v.type) (featureRaw v.feature)

/-- DECODE's answer (R116): UNPACK's numbers, and each resolved in the direction's tables. It never fails (R117). -/
def decodeResponse (d : Direction) (byte : Byte) : Response :=
  .ok { dir := dirCode d
        a := extractSub .mode byte
        b := extractSub .type byte
        c := extractSub .feature byte
        modeSym := modeSymOf d (byteMode byte)
        typeSym := typeSymOf d (byteType byte)
        featSym := some (featSymOf (byteFeature byte)) }

/-- RESOLVE_TYPE (R111). -/
def execResolveType (dir : Direction) (raw : BitVec 4) (s : State) : Host.Outcome State Fault Refusal :=
  .next (respond (resolveTypeResponse dir raw) s)

/-- RESOLVE_MODE (R112). -/
def execResolveMode (dir : Direction) (raw : BitVec 2) (s : State) : Host.Outcome State Fault Refusal :=
  .next (respond (resolveModeResponse dir raw) s)

/-- RESOLVE_FEATURE (R113). -/
def execResolveFeature (raw : BitVec 2) (s : State) : Host.Outcome State Fault Refusal :=
  .next (respond (resolveFeatureResponse raw) s)

/-- ENCODE (R115). -/
def execEncode (value : AttributeValue) (s : State) : Host.Outcome State Fault Refusal :=
  .next (respond (encodeResponse value) s)

/-- DECODE (R116). -/
def execDecode (dir : Direction) (byte : Byte) (s : State) : Host.Outcome State Fault Refusal :=
  .next (respond (decodeResponse dir byte) s)

end Sys2Proof.Machine
end

