-- ==== Sys2Proof/Machine/Dispatch.lean ====
section
/-! DEFINITION. The dispatch: one arm per constructor of `Instr`, each one direct call of the instruction's meaning (R64). -/

namespace Sys2Proof.Machine

def exec (i : Instr) (s : State) : Host.Outcome State Fault Refusal :=
  match i with
  | .pack mode type feature => Sys2Proof.Machine.execPack mode type feature s
  | .unpack byte => Sys2Proof.Machine.execUnpack byte s
  | .resolveType dir raw => Sys2Proof.Machine.execResolveType dir raw s
  | .resolveMode dir raw => Sys2Proof.Machine.execResolveMode dir raw s
  | .resolveFeature raw => Sys2Proof.Machine.execResolveFeature raw s
  | .encode value => Sys2Proof.Machine.execEncode value s
  | .decode dir byte => Sys2Proof.Machine.execDecode dir byte s

end Sys2Proof.Machine
end

