-- ==== Sys2Proof/Machine/Step.lean ====
section
/-! DEFINITION. One step (R36): "the host presents a request word with `req_valid` = 1 and the block answers with the response
word". A step in which the host presents nothing leaves the response undefined (R172). -/

namespace Sys2Proof.Machine

/-- The block's answer to the word on its request port (R81): the decoded operation runs, and operation code 7 takes the error the
decoder raises (R143). -/
def serve (s : State) : Host.Outcome State Fault Refusal :=
  match decodeReq s.req with
  | .ok i => exec i s
  | .error e => .next (raiseError e s)

/-- One step: the host drives the input ports, and the block answers in the same step (R177). -/
def step (s : State) : Host.Outcome State Fault Refusal :=
  if (present s).reqValid then serve (present s) else .next (idle (present s))

/-- The host's next drive presents the request word `w` of `nbits` bits; what it meant to drive before now comes after. Log entry
2: a request comes from the host, outside the machine. -/
def State.withFetchWord (s : State) (nbits w : Nat) : State :=
  { s with host := ⟨true, BitVec.ofNat 40 (w % 2 ^ nbits)⟩ :: s.host }

end Sys2Proof.Machine
end

