-- ==== Sys2Proof/WellFormed.lean ====
section
/-! DEFINITION. Three well-formedness checks, each a Bool: the invariant of an attribute value (R33); the operands an operation
accepts (R11, R91, R115); the numbers the textual form admits (R77). None of them is a condition for being decoded or run: an
operation with unaccepted operands runs and reports its error. -/

namespace Sys2Proof

/-- The invariant of R33: raw numbers in range, and each symbol as the direction's table gives it. -/
def AttributeValue.wellFormed (v : AttributeValue) : Bool :=
  decide (v.mode.raw.toNat < 4) && decide (v.type.raw.toNat < 16) && decide (v.feature.raw.toNat < 4)
  && decide (v.mode.sym = Machine.modeSymOf v.dir (v.mode.raw.setWidth 2))
  && decide (v.type.sym = Machine.typeSymOf v.dir (v.type.raw.setWidth 4))
  && decide (v.feature.sym = some (Machine.featSymOf (v.feature.raw.setWidth 2)))

/-- The operands the operation accepts: `pack`'s valid ranges (R11, R91), and for ENCODE every supplied symbol in the direction's
table and every raw number in range (R115). The other five operations accept every operand (R150). Log entry 9. -/
def Instr.wellFormed : Instr → Bool
  | .pack m t f => decide (m.toNat < 4) && decide (t.toNat < 16) && decide (f.toNat < 4)
  | .unpack _ => true
  | .resolveType _ _ => true
  | .resolveMode _ _ => true
  | .resolveFeature _ => true
  | .encode v =>
    v.mode.sym.all (Machine.modeMember v.dir) && v.type.sym.all (Machine.typeMember v.dir)
    && decide ((Machine.modeRaw v.mode).toNat < 4) && decide ((Machine.typeRaw v.type).toNat < 16)
    && decide ((Machine.featureRaw v.feature).toNat < 4)
  | .decode _ _ => true

/-- `<num>` inside `encode`'s braces (R77): 0..255; a symbol and a member left out are always in range. -/
def AsmOperand.wellFormed {S : Type} : Option (AsmOperand S) → Bool
  | some (.num n) => decide (n < 256)
  | some (.sym _) => true
  | none => true

/-- The ranges R77 gives a number: 0..255, and 0..15 or 0..3 for the RESOLVE operations. -/
def AsmCall.wellFormed : AsmCall → Bool
  | .pack m t f => decide (m < 256) && decide (t < 256) && decide (f < 256)
  | .unpack b => decide (b < 256)
  | .resolveType _ r => decide (r < 16)
  | .resolveMode _ r => decide (r < 4)
  | .resolveFeature r => decide (r < 4)
  | .encode _ m t f => AsmOperand.wellFormed m && AsmOperand.wellFormed t && AsmOperand.wellFormed f
  | .decode _ b => decide (b < 256)

end Sys2Proof
end

