-- ==== Sys2Proof/Machine/Assembler.lean ====
section
/-! DEFINITION. The textual form (R77): from the characters of a call to its request word, and from a response word to the text written
after the arrow. The block never sees text; this is the spec's own assembler. Log entry 10. -/

namespace Sys2Proof.Machine

/-! ### From a call to its instruction and its word -/

/-- A member's lane and symbol (R77): a number goes to the lane, a name to the symbol with lane 0, a member left out is the raw
number 0. -/
def asmMember {S : Type} : Option (AsmOperand S) → Member S
  | some (.num n) => ⟨BitVec.ofNat 8 n, none⟩
  | some (.sym x) => ⟨0, some x⟩
  | none => ⟨0, none⟩

/-- The instruction a call stands for (R12, R77). -/
def asmInstr : AsmCall → Instr
  | .pack m t f => .pack (BitVec.ofNat 8 m) (BitVec.ofNat 8 t) (BitVec.ofNat 8 f)
  | .unpack b => .unpack (BitVec.ofNat 8 b)
  | .resolveType d r => .resolveType d (BitVec.ofNat 4 r)
  | .resolveMode d r => .resolveMode d (BitVec.ofNat 2 r)
  | .resolveFeature r => .resolveFeature (BitVec.ofNat 2 r)
  | .encode d m t f => .encode ⟨d, asmMember m, asmMember t, asmMember f⟩
  | .decode d b => .decode d (BitVec.ofNat 8 b)

/-- The request word of a call whose numbers are in R77's ranges. -/
def assemble (c : AsmCall) : Option ReqWord :=
  if c.wellFormed then some (encodeReq (asmInstr c)) else none

/-! ### From characters to tokens -/

/-- The tokens of R77's grammar. -/
inductive Token
  | name (s : String)
  | num (n : Nat)
  | lpar
  | rpar
  | lbrace
  | rbrace
  | comma
  | colon
deriving DecidableEq, Repr

/-- A letter, digit or underscore: the characters of names and numbers. -/
def isWordChar (c : Char) : Bool := c.isAlphanum || c == '_'

/-- The value of a digit, hexadecimal digits in either case. -/
def digitValue (c : Char) : Option Nat :=
  if '0' ≤ c ∧ c ≤ '9' then some (c.toNat - 48)
  else if 'a' ≤ c ∧ c ≤ 'f' then some (c.toNat - 87)
  else if 'A' ≤ c ∧ c ≤ 'F' then some (c.toNat - 55)
  else none

/-- A run of digits in a base, after the value read so far. -/
def readDigits (base : Nat) : List Char → Nat → Option Nat
  | [], acc => some acc
  | c :: cs, acc =>
    match digitValue c with
    | some d => if d < base then readDigits base cs (acc * base + d) else none
    | none => none

/-- `<num>` (R77): decimal, `0x` hexadecimal or `0b` binary. -/
def readNum : List Char → Option Nat
  | '0' :: 'x' :: d :: ds => readDigits 16 (d :: ds) 0
  | '0' :: 'b' :: d :: ds => readDigits 2 (d :: ds) 0
  | d :: ds => readDigits 10 (d :: ds) 0
  | [] => none

/-- A word of letters and digits as a token: a number if it begins with a digit, else a name. -/
def wordToken (cs : List Char) : Option Token :=
  match cs with
  | [] => none
  | c :: _ => if c.isDigit then (readNum cs).map .num else some (.name (String.ofList cs))

/-- A punctuation character as a token; 123 and 125 are the braces. -/
def punctToken (c : Char) : Option Token :=
  if c == '(' then some .lpar
  else if c == ')' then some .rpar
  else if c == ',' then some .comma
  else if c == ':' then some .colon
  else if c.toNat == 123 then some .lbrace
  else if c.toNat == 125 then some .rbrace
  else none

/-- The tokens of a text; `cur` is the word being read. Blanks only separate. -/
def tokens : List Char → List Char → Option (List Token)
  | [], [] => some []
  | [], c :: cs => (wordToken (c :: cs)).map ([·])
  | x :: xs, cur =>
    if isWordChar x then tokens xs (cur ++ [x])
    else do
      let here ← match cur with
        | [] => some []
        | c :: cs => (wordToken (c :: cs)).map ([·])
      let mark ← if x.isWhitespace then some [] else (punctToken x).map ([·])
      let rest ← tokens xs []
      return here ++ mark ++ rest

/-! ### From tokens to a call -/

/-- `<DIR>` (R77). -/
def readDir (s : String) : Option Direction :=
  if s = "ENTITY_TO_CENTER" then some .entityToCenter
  else if s = "CENTER_TO_ENTITY" then some .centerToEntity
  else none

/-- A symbol name in `mode:` (R66). -/
def readModeSym (s : String) : Option ModeSymbol :=
  if s = "DEFAULT" then some .default
  else if s = "DATAGRAM" then some .datagram
  else if s = "FORWARD" then some .forward
  else if s = "STORE_AND_FORWARD" then some .storeAndForward
  else none

/-- A symbol name in `type:` (R67). -/
def readTypeSym (s : String) : Option TypeSymbol :=
  if s = "DEFAULT" then some .default
  else if s = "ESME_DELIVERY_ACK" then some .esmeDeliveryAck
  else if s = "ESME_USER_ACK" then some .esmeUserAck
  else if s = "SME_DELIVERY_RECEIPT" then some .smeDeliveryReceipt
  else if s = "SME_DELIVERY_ACK" then some .smeDeliveryAck
  else if s = "SME_USER_ACK" then some .smeUserAck
  else if s = "CONVERSATION_ABORT" then some .conversationAbort
  else if s = "INTERMEDIATE" then some .intermediate
  else none

/-- A symbol name in `feature:` (R68). -/
def readFeatureSym (s : String) : Option FeatureSymbol :=
  if s = "NONE" then some .none
  else if s = "UDHI" then some .udhi
  else if s = "REPLY_PATH" then some .replyPath
  else if s = "UDHI_AND_REPLY_PATH" then some .udhiAndReplyPath
  else none

/-- `<opd>` (R77). -/
def readOperand {S : Type} (readSym : String → Option S) : Token → Option (AsmOperand S)
  | .num n => some (.num n)
  | .name s => (readSym s).map .sym
  | _ => none

/-- The members between `encode`'s braces, as far as they have been read. -/
structure AsmMembers where
  mode    : Option (AsmOperand ModeSymbol) := none
  type    : Option (AsmOperand TypeSymbol) := none
  feature : Option (AsmOperand FeatureSymbol) := none
deriving DecidableEq, Repr

/-- One member `key: opd` added to those before it, in the order mode, type, feature, each at most once. -/
def addMember (ms : AsmMembers) (key : String) (opd : Token) : Option AsmMembers :=
  if key = "mode" then
    if ms.mode.isNone && ms.type.isNone && ms.feature.isNone then
      (readOperand readModeSym opd).map fun o => { ms with mode := some o }
    else none
  else if key = "type" then
    if ms.type.isNone && ms.feature.isNone then
      (readOperand readTypeSym opd).map fun o => { ms with type := some o }
    else none
  else if key = "feature" then
    if ms.feature.isNone then (readOperand readFeatureSym opd).map fun o => { ms with feature := some o }
    else none
  else none

/-- The rest of `encode`'s members and its closing marks. -/
def readMembers (ms : AsmMembers) : List Token → Option AsmMembers
  | [.name key, .colon, opd, .rbrace, .rpar] => addMember ms key opd
  | .name key :: .colon :: opd :: .comma :: rest =>
    match addMember ms key opd with
    | some ms' => readMembers ms' rest
    | none => none
  | _ => none

/-- A whole call (R77). -/
def readCall : List Token → Option AsmCall
  | [.name "pack", .lpar, .num m, .comma, .num t, .comma, .num f, .rpar] => some (.pack m t f)
  | [.name "unpack", .lpar, .num b, .rpar] => some (.unpack b)
  | [.name "resolve_type", .lpar, .name d, .comma, .num r, .rpar] => (readDir d).map (.resolveType · r)
  | [.name "resolve_mode", .lpar, .name d, .comma, .num r, .rpar] => (readDir d).map (.resolveMode · r)
  | [.name "resolve_feature", .lpar, .num r, .rpar] => some (.resolveFeature r)
  | [.name "decode", .lpar, .name d, .comma, .num b, .rpar] => (readDir d).map (.decode · b)
  | [.name "encode", .lpar, .name d, .comma, .lbrace, .rbrace, .rpar] => (readDir d).map (.encode · none none none)
  | .name "encode" :: .lpar :: .name d :: .comma :: .lbrace :: rest => do
    let dir ← readDir d
    let ms ← readMembers {} rest
    return .encode dir ms.mode ms.type ms.feature
  | _ => none

/-- The request word of a text (R77). -/
def assembleText (text : String) : Option ReqWord := do
  let ts ← tokens text.toList []
  let call ← readCall ts
  assemble call

/-! ### From a response word to the text after the arrow -/

/-- The name of a mode symbol (R28). -/
def modeName : ModeSymbol → String
  | .default => "DEFAULT"
  | .datagram => "DATAGRAM"
  | .forward => "FORWARD"
  | .storeAndForward => "STORE_AND_FORWARD"

/-- The name of a type symbol (R34). -/
def typeName : TypeSymbol → String
  | .default => "DEFAULT"
  | .esmeDeliveryAck => "ESME_DELIVERY_ACK"
  | .esmeUserAck => "ESME_USER_ACK"
  | .smeDeliveryReceipt => "SME_DELIVERY_RECEIPT"
  | .smeDeliveryAck => "SME_DELIVERY_ACK"
  | .smeUserAck => "SME_USER_ACK"
  | .conversationAbort => "CONVERSATION_ABORT"
  | .intermediate => "INTERMEDIATE"

/-- The name of a feature symbol (R32). -/
def featureName : FeatureSymbol → String
  | .none => "NONE"
  | .udhi => "UDHI"
  | .replyPath => "REPLY_PATH"
  | .udhiAndReplyPath => "UDHI_AND_REPLY_PATH"

/-- One digit, to base 16. -/
def digitChar (n : Nat) : Char := if n < 10 then Char.ofNat (48 + n) else Char.ofNat (55 + n)

/-- A byte in hexadecimal, as R77 writes it. -/
def hexText (b : Byte) : String := "0x" ++ String.ofList [digitChar (b.toNat / 16), digitChar (b.toNat % 16)]

/-- A lane in decimal, without leading zeros. -/
def decText (v : Lane) : String :=
  let n := v.toNat
  if n < 10 then String.ofList [digitChar n]
  else if n < 100 then String.ofList [digitChar (n / 10), digitChar (n % 10)]
  else String.ofList [digitChar (n / 100), digitChar (n / 10 % 10), digitChar (n % 10)]

/-- An optional symbol (R77): `Some(NAME)` or `None`. -/
def optionText {S : Type} (name : S → String) : Option S → String
  | some x => "Some(" ++ name x ++ ")"
  | none => "None"

/-- A member of a decoded value, in the notation of `encode`'s operand: its symbol's name if it has one, else its number. -/
def memberText {S : Type} (name : S → String) (m : Member S) : String :=
  match m.sym with
  | some x => name x
  | none => decText m.raw

/-- A decoded value, in the notation of `encode`'s operand; 123 and 125 are the braces. -/
def valueText (v : AttributeValue) : String :=
  String.ofList [Char.ofNat 123] ++ "mode: " ++ memberText modeName v.mode ++ ", type: " ++ memberText typeName v.type
    ++ ", feature: " ++ memberText featureName v.feature ++ String.ofList [Char.ofNat 125]

/-- The text after the arrow (R77), from the request's operation code and the response word. A failed response shows its error's name
and none of its other bits (R73). -/
def resultText (op : BitVec 3) (rsp : RspWord) : String :=
  match (rspStatus rsp).toNat, op.toNat with
  | 0, 1 => "(" ++ decText (rspA rsp) ++ ", " ++ decText (rspB rsp) ++ ", " ++ decText (rspC rsp) ++ ")"
  | 0, 2 => optionText typeName (rspValue rsp).type.sym
  | 0, 3 => optionText modeName (rspValue rsp).mode.sym
  | 0, 4 => memberText featureName (rspValue rsp).feature
  | 0, 6 => valueText (rspValue rsp)
  | 0, _ => hexText (rspA rsp)
  | 1, _ => "OutOfRange"
  | 2, _ => "InvalidForDirection"
  | _, _ => "IllegalOp"

end Sys2Proof.Machine
end

