-- ==== Sys2Proof/Safety.lean ====
section
/-! DEFINITION. The terms claims use: the answer a request word calls for, what the response port may carry for it, a state whose
ports have settled, the responses of a
run, and the instruction a call of the textual form stands for. -/

namespace Sys2Proof

/-- The answer of an operation, as a function of the operation alone (R20, R46). -/
def answerOf : Instr → Machine.Response
  | .pack m t f => Machine.packResponse m t f
  | .unpack b => Machine.unpackResponse b
  | .resolveType d r => Machine.resolveTypeResponse d r
  | .resolveMode d r => Machine.resolveModeResponse d r
  | .resolveFeature r => Machine.resolveFeatureResponse r
  | .encode v => Machine.encodeResponse v
  | .decode d b => Machine.decodeResponse d b

/-- The answer to a request word (R46, R81): the block as the combinational function it is. -/
def answer (w : ReqWord) : Machine.Response :=
  match decodeReq w with
  | .ok i => answerOf i
  | .error e => .error e

/-- Whether a response word may stand on the port for an answer: the one word of a success (R70), any word with the status of a
failure (R73). -/
def Admits (r : Machine.Response) (w : RspWord) : Prop :=
  match r with
  | .ok p => w = Machine.payloadWord p
  | .error e => Machine.rspStatus w = Machine.errorCode e

/-- The ports agree as R79 says: `rsp_valid` = `req_valid`, and while it is 1 the response is that of the presented word. -/
def PortsSettled (s : Machine.State) : Prop :=
  s.rspValid = s.reqValid ∧ (s.reqValid = true → Admits (answer s.req) s.rsp)

/-- The request words the host will present, in order (R178). -/
def requestsOf (drives : List Machine.Drive) : List ReqWord :=
  (drives.filter (·.valid)).map (·.word)

/-- The valid responses of the first `k` steps, in order (R178: what a claim can speak of is the sequence of responses). -/
def responsesOf : Nat → Machine.State → List RspWord
  | 0, _ => []
  | k + 1, s =>
    match Machine.step s with
    | .next t => if t.rspValid then t.rsp :: responsesOf k t else responsesOf k t
    | .fault _ => []
    | .refused _ => []

/-- What a member inside `encode`'s braces stands for (R77): a number is the raw lane with no symbol; a name is the symbol, and its
lane, which the format ignores, is 0; a member left out is the raw number 0. -/
def MemberStandsFor {S : Type} (opd : Option (AsmOperand S)) (m : Member S) : Prop :=
  match opd with
  | some (.num n) => m.sym = none ∧ m.raw.toNat = n
  | some (.sym x) => m.sym = some x ∧ m.raw = 0
  | none => m.sym = none ∧ m.raw = 0

/-- What a call stands for (R77), form by form: its own operation, with its direction and with every operand equal to the number
written. -/
def CallStandsFor (c : AsmCall) (i : Instr) : Prop :=
  match c with
  | .pack m t f => ∃ m' t' f', i = .pack m' t' f' ∧ m'.toNat = m ∧ t'.toNat = t ∧ f'.toNat = f
  | .unpack b => ∃ b', i = .unpack b' ∧ b'.toNat = b
  | .resolveType d r => ∃ r', i = .resolveType d r' ∧ r'.toNat = r
  | .resolveMode d r => ∃ r', i = .resolveMode d r' ∧ r'.toNat = r
  | .resolveFeature r => ∃ r', i = .resolveFeature r' ∧ r'.toNat = r
  | .encode d m t f =>
    ∃ v, i = .encode v ∧ v.dir = d ∧ MemberStandsFor m v.mode ∧ MemberStandsFor t v.type ∧ MemberStandsFor f v.feature
  | .decode d b => ∃ b', i = .decode d b' ∧ b'.toNat = b

end Sys2Proof
end

