-- ==== Sys2Proof/Certificates/Slice0/Obligations.lean ====
section
/-! DEFINITION. The statements for the provers, from the numbered rules of spec/. A free value (the bits 39:2 of a failed response,
the response word with no request, and the draw counter) is always under an existential that no clause constrains. -/

open Sys2Proof Sys2Proof.Machine

/-! ### Encoding -/

/-- R66, R67, R68: the symbol ids, and the raw number each symbol stands for. -/
def Obligations.SymbolIdsAndCodes : Prop :=
  (modeOfId 0 = .default ∧ modeOfId 1 = .datagram ∧ modeOfId 2 = .forward ∧ modeOfId 3 = .storeAndForward) ∧
  (∀ x, modeCode (modeOfId x) = x) ∧
  (typeOfId 0 = .default ∧ typeOfId 1 = .esmeDeliveryAck ∧ typeOfId 2 = .esmeUserAck ∧ typeOfId 3 = .smeDeliveryReceipt ∧
    typeOfId 4 = .smeDeliveryAck ∧ typeOfId 5 = .smeUserAck ∧ typeOfId 6 = .conversationAbort ∧ typeOfId 7 = .intermediate) ∧
  (∀ x, (typeMember .entityToCenter (typeOfId x), typeMember .centerToEntity (typeOfId x), typeCode (typeOfId x)) =
    match x.toNat with
    | 0 => (true, true, 0)
    | 1 => (true, false, 2)
    | 2 => (true, false, 4)
    | 3 => (false, true, 1)
    | 4 => (false, true, 2)
    | 5 => (false, true, 4)
    | 6 => (false, true, 6)
    | _ => (false, true, 8)) ∧
  (featOfId 0 = .none ∧ featOfId 1 = .udhi ∧ featOfId 2 = .replyPath ∧ featOfId 3 = .udhiAndReplyPath) ∧
  (∀ x, featCode (featOfId x) = x) ∧
  (∀ s, modeOfId (modeId s) = s) ∧ (∀ s, typeOfId (typeId s) = s) ∧ (∀ s, featOfId (featId s) = s)

/-- R28, R29, R30, R32: the constant tables, entry by entry, with the mode symbols' membership (R110). -/
def Obligations.SymbolTables : Prop :=
  (∀ raw, modeSymOf .entityToCenter raw = match raw.toNat with
    | 0 => some .default
    | 1 => some .datagram
    | 2 => some .forward
    | _ => some .storeAndForward) ∧
  (∀ raw, modeSymOf .centerToEntity raw = none) ∧
  (∀ s, modeMember .entityToCenter s = true ∧ modeMember .centerToEntity s = false) ∧
  (∀ raw, typeSymOf .entityToCenter raw = if raw = 0 then some .default else if raw = 2 then some .esmeDeliveryAck
    else if raw = 4 then some .esmeUserAck else none) ∧
  (∀ raw, typeSymOf .centerToEntity raw = if raw = 0 then some .default else if raw = 1 then some .smeDeliveryReceipt
    else if raw = 2 then some .smeDeliveryAck else if raw = 4 then some .smeUserAck
    else if raw = 6 then some .conversationAbort else if raw = 8 then some .intermediate else none) ∧
  (featSymOf 0 = .none ∧ featSymOf 1 = .udhi ∧ featSymOf 2 = .replyPath ∧ featSymOf 3 = .udhiAndReplyPath)

/-- R110's "Facts a model may check": membership, codes and tables agree, within each direction and for the feature table. -/
def Obligations.TablesAgreeWithCodes : Prop :=
  (∀ d s s', typeMember d s = true → typeMember d s' = true → typeCode s = typeCode s' → s = s') ∧
  (∀ d s, typeMember d s = true → typeSymOf d (typeCode s) = some s) ∧
  (∀ d r s, typeSymOf d r = some s → typeMember d s = true ∧ typeCode s = r) ∧
  (∀ d s, modeMember d s = true → modeSymOf d (modeCode s) = some s) ∧
  (∀ d r s, modeSymOf d r = some s → modeMember d s = true ∧ modeCode s = r) ∧
  (∀ s, featSymOf (featCode s) = s) ∧ (∀ r, featCode (featSymOf r) = r)

/-- Words of every format, written out from R61 and R62 field by field (bit 39 leftmost), decode to their instructions; the last
is operation code 7. -/
def Obligations.WrittenWordsDecode : Prop :=
  decodeReq 0b00000000_00000001_00000000_00000011_00000000#40 = .ok (.pack 3 0 1) ∧
  decodeReq 0b00000000_00000000_00000000_10000110_00000001#40 = .ok (.unpack 0x86) ∧
  decodeReq 0b00000000_00000000_00000001_00000000_00001010#40 = .ok (.resolveType .centerToEntity 1) ∧
  decodeReq 0b00000000_00000000_00000000_00000011_00000011#40 = .ok (.resolveMode .entityToCenter 3) ∧
  decodeReq 0b00000000_00000010_00000000_00000000_00000100#40 = .ok (.resolveFeature 2) ∧
  decodeReq 0b00100011_00000000_00000000_00000000_01110101#40 = .ok (.encode ⟨.entityToCenter, ⟨0, some .storeAndForward⟩,
    ⟨0, some .default⟩, ⟨0, some .udhi⟩⟩) ∧
  decodeReq 0b00000100_00000000_00001001_00000001_00001101#40 = .ok (.encode ⟨.centerToEntity, ⟨1, none⟩, ⟨9, none⟩, ⟨0, none⟩⟩) ∧
  decodeReq 0b00000000_00000000_00000000_10000110_00001110#40 = .ok (.decode .centerToEntity 0x86) ∧
  decodeReq 0b11111111_11111111_11111111_11111111_11111111#40 = .error .illegalOp

/-- R64, R76: the operation code selects the operation, and code 7 is the only undefined encoding. -/
def Obligations.OpFieldSelectsOperation : Prop :=
  (∀ w i, decodeReq w = .ok i → w.extractLsb' 0 3 = opCode i) ∧
  (∀ w, (∃ i, decodeReq w = .ok i) ↔ w.extractLsb' 0 3 ≠ 7) ∧
  (∀ w e, decodeReq w = .error e → w.extractLsb' 0 3 = 7 ∧ e = .illegalOp)

/-- Decoding the word of any instruction gives the instruction back, with every operand at every value. -/
def Obligations.DecodeOfEncode : Prop :=
  ∀ i : Instr, decodeReq (encodeReq i) = .ok i

/-- Where every bit the operation does not read is 0 (what the assembler writes, R77), the word is the encoding of what it decodes
to: no bit the format reads is dropped. -/
def Obligations.EncodeOfDecode : Prop :=
  ∀ (w : ReqWord) (i : Instr), decodeReq w = .ok i → w &&& readMask w = w → encodeReq i = w

/-- R63: "two request words that agree on `op` and on the fields the format reads give the same response". -/
def Obligations.IgnoredBitsHaveNoEffect : Prop :=
  ∀ w w' : ReqWord, w' &&& readMask w = w &&& readMask w → answer w' = answer w

/-- R77: a call whose numbers are in range assembles to a word with every bit its format ignores 0, and the word decodes to the
instruction the call stands for: the operation and direction named, and each operand, in its own place, equal to the number written.
A member of `encode` is a raw lane, or a symbol with its `_sv` bit 1 and its id in the symbol field, or raw 0 when left out. -/
def Obligations.AssembledCallDecodes : Prop :=
  ∀ c : AsmCall, c.wellFormed = true →
    ∃ w i, assemble c = some w ∧ decodeReq w = .ok i ∧ CallStandsFor c i ∧ w &&& readMask w = w ∧
      (∀ d m t f, c = .encode d m t f →
        (∀ x, m = some (.sym x) → w.extractLsb' 4 1 = 1 ∧ w.extractLsb' 32 2 = modeId x) ∧
        (∀ x, t = some (.sym x) → w.extractLsb' 5 1 = 1 ∧ w.extractLsb' 34 3 = typeId x) ∧
        (∀ x, f = some (.sym x) → w.extractLsb' 6 1 = 1 ∧ w.extractLsb' 37 2 = featId x))

/-- R77's two assembled examples, from their text. 123 and 125 are the braces. The last clause, that a number outside R77's range is
refused, is the model's choice (log entry 10). -/
def Obligations.AssembledTexts : Prop :=
  assembleText ("encode(ENTITY_TO_CENTER, " ++ (Char.ofNat 123).toString ++
    "mode: STORE_AND_FORWARD, type: DEFAULT, feature: UDHI" ++ (Char.ofNat 125).toString ++ ")") = some 0x2300000075 ∧
  assembleText "decode(CENTER_TO_ENTITY, 0b10000110)" = some 0x000000860E ∧
  assembleText "resolve_type(ENTITY_TO_CENTER, 16)" = none

/-- R77: the result after the arrow. The rule's five texts, as the results of operations run in any state (their operands are R91's,
R111's and V2's examples); and a failed response is its error's name, whatever its other bits. -/
def Obligations.ResultTexts : Prop :=
  (∀ s : State,
    (∃ t, exec (.pack 3 0 1) s = .next t ∧ resultText 0 t.rsp = "0x43") ∧
    (∃ t, exec (.unpack 0x43) s = .next t ∧ resultText 1 t.rsp = "(3, 0, 1)") ∧
    (∃ t, exec (.resolveType .centerToEntity 1) s = .next t ∧ resultText 2 t.rsp = "Some(SME_DELIVERY_RECEIPT)") ∧
    (∃ t, exec (.resolveType .entityToCenter 1) s = .next t ∧ resultText 2 t.rsp = "None") ∧
    (∃ t, exec (.pack 4 0 0) s = .next t ∧ resultText 0 t.rsp = "OutOfRange")) ∧
  (∀ (op : BitVec 3) (rsp : RspWord), (rsp.extractLsb' 0 2 = 1 → resultText op rsp = "OutOfRange") ∧
    (rsp.extractLsb' 0 2 = 2 → resultText op rsp = "InvalidForDirection") ∧
    (rsp.extractLsb' 0 2 = 3 → resultText op rsp = "IllegalOp"))

/-! ### The step -/

/-- A step runs the decoded instruction: when the word the host presents decodes to `i`, the step is `exec i` on the state whose
input ports carry that word. -/
def Obligations.StepRunsDecodedRequest : Prop :=
  ∀ (s : State) (w : ReqWord) (rest : List Drive) (i : Instr), s.host = ⟨true, w⟩ :: rest → decodeReq w = .ok i →
    step s = exec i { s with host := rest, reqValid := true, req := w }

/-- R74, R143, R147: operation code 7 is answered with status 3, whatever the other bits, and nothing else changes. -/
def Obligations.IllegalOpAnswersStatusThree : Prop :=
  ∀ (s : State) (w : ReqWord) (rest : List Drive), s.host = ⟨true, w⟩ :: rest → w.extractLsb' 0 3 = 7 →
    ∃ (x : RspWord) (n : Nat),
      step s = .next { s with host := rest, reqValid := true, req := w, rspValid := true, rsp := x, draws := n } ∧
      x.extractLsb' 0 2 = 3

/-- R172: while `req_valid` = 0, `rsp_valid` = 0 and `rsp` is unspecified. That such a step is a next state at all, and that `req`
keeps its word when the host has nothing left to drive, is the model's choice (log entries 3 and 6). -/
def Obligations.NoRequestNoResponse : Prop :=
  (∀ (s : State) (w : ReqWord) (rest : List Drive), s.host = ⟨false, w⟩ :: rest →
    ∃ (x : RspWord) (n : Nat),
      step s = .next { s with host := rest, reqValid := false, req := w, rspValid := false, rsp := x, draws := n }) ∧
  (∀ s : State, s.host = [] →
    ∃ (x : RspWord) (n : Nat), step s = .next { s with reqValid := false, rspValid := false, rsp := x, draws := n })

/-- R79, R81: every step ends in a next state, from any state, and leaves the ports settled: `rsp_valid` = `req_valid`, and while
`req_valid` = 1 the response is that of the presented word. So `PortsSettled` is an invariant that needs no premise. That a step in
which no request is presented is a next state is the model's choice (log entry 3). -/
def Obligations.StepSettlesPorts : Prop :=
  ∀ s : State, ∃ t, step s = .next t ∧ PortsSettled t

/-- The ports after power-up are settled: no request is presented, nothing is pending, and no response is valid. That no request is
presented and that the host's list is empty at power-up is the model's choice (log entry 5); that no response is then valid follows
from R172. The value of `req` is the model's choice too and is not stated. -/
def Obligations.ResetPortsSettled : Prop :=
  PortsSettled State.reset ∧ State.reset.reqValid = false ∧ State.reset.rspValid = false ∧ State.reset.host = []

/-- R46: the same request word, presented in any two states, gets the same status, and when the status is OK the same response
word. -/
def Obligations.ResponseDependsOnRequestAlone : Prop :=
  ∀ (s s' : State) (w : ReqWord) (rest rest' : List Drive), s.host = ⟨true, w⟩ :: rest → s'.host = ⟨true, w⟩ :: rest' →
    ∃ t t', step s = .next t ∧ step s' = .next t' ∧ rspStatus t.rsp = rspStatus t'.rsp ∧
      (rspStatus t.rsp = 0 → t.rsp = t'.rsp)

/-- R178: a run answers exactly the requests the host presents, each by its own answer, in order, and nothing after them. That the
run goes on when no request is presented is the model's choice (log entry 3). -/
def Obligations.RunAnswersEachRequest : Prop :=
  ∀ (s : State) (k : Nat),
    List.Forall₂ Admits ((requestsOf s.host).map answer) (responsesOf (s.host.length + k) s)

/-- The frame of all seven operations (R20, R147, R148): each ends in a next state that differs from the state before in the
response ports and the draw counter alone, and on success in the response ports alone. -/
def Obligations.OperationsChangeOnlyResponse : Prop :=
  ∀ (i : Instr) (s : State), ∃ (x : RspWord) (n : Nat),
    exec i s = .next { s with rspValid := true, rsp := x, draws := n } ∧ (rspStatus x = 0 → n = s.draws)

/-! ### The codec -/

/-- R91: PACK. The three operands that fit give the byte `(f << 6) | (t << 2) | m`, and every other response field 0; else status
1, and nothing else is defined. -/
def Obligations.PackResult : Prop :=
  (∀ w : ReqWord, w.extractLsb' 0 3 = 0 →
    decodeReq w = .ok (.pack (w.extractLsb' 8 8) (w.extractLsb' 16 8) (w.extractLsb' 24 8))) ∧
  (∀ (s : State) (m t f : Lane), m.toNat < 4 → t.toNat < 16 → f.toNat < 4 →
    exec (.pack m t f) s =
      .next { s with rspValid := true, rsp := (((f <<< 6) ||| (t <<< 2) ||| m : Byte).setWidth 40) <<< 8 }) ∧
  (∀ (s : State) (m t f : Lane), (4 ≤ m.toNat ∨ 16 ≤ t.toNat ∨ 4 ≤ f.toNat) →
    ∃ (x : RspWord) (n : Nat),
      exec (.pack m t f) s = .next { s with rspValid := true, rsp := x, draws := n } ∧ x.extractLsb' 0 2 = 1)

/-- R95: no silent truncation. A successful PACK had three operands that fit, and its byte is exactly 64·f + 4·t + m. -/
def Obligations.PackNeverTruncates : Prop :=
  ∀ (s u : State) (m t f : Lane), exec (.pack m t f) s = .next u → rspStatus u.rsp = 0 →
    m.toNat < 4 ∧ t.toNat < 16 ∧ f.toNat < 4 ∧ (rspA u.rsp).toNat = 64 * f.toNat + 4 * t.toNat + m.toNat

/-- R92: UNPACK, total over all bytes, mask first and then shift; every other response field 0. -/
def Obligations.UnpackResult : Prop :=
  (∀ w : ReqWord, w.extractLsb' 0 3 = 1 → decodeReq w = .ok (.unpack (w.extractLsb' 8 8))) ∧
  (∀ (s : State) (b : Byte),
    exec (.unpack b) s =
      .next { s with
        rspValid := true
        rsp := (b &&& 0b00000011).setWidth 40 <<< 8 ||| ((b &&& 0b00111100) >>> 2).setWidth 40 <<< 16
          ||| ((b &&& 0b11000000) >>> 6).setWidth 40 <<< 24 })

/-- R93: UNPACK any byte, present the response word as the next request, and PACK gives the byte back. The second request may come
in any state. -/
def Obligations.PackAfterUnpackGivesByte : Prop :=
  ∀ (s : State) (w : ReqWord) (rest : List Drive), s.host = ⟨true, w⟩ :: rest → w.extractLsb' 0 3 = 1 →
    ∃ t, step s = .next t ∧ rspStatus t.rsp = 0 ∧ (rspA t.rsp).toNat < 4 ∧ (rspB t.rsp).toNat < 16 ∧ (rspC t.rsp).toNat < 4 ∧
      ∀ (s' : State) (rest' : List Drive), s'.host = ⟨true, t.rsp⟩ :: rest' →
        ∃ u, step s' = .next u ∧ u.rsp = (w.extractLsb' 8 8).setWidth 40 <<< 8

/-- R94: PACK three operands that fit, UNPACK the byte, and the three numbers come back in their lanes; and every byte is the PACK of
such operands, so PACK maps them one-to-one onto the bytes. -/
def Obligations.UnpackAfterPackGivesTriple : Prop :=
  (∀ (s : State) (w : ReqWord) (rest : List Drive), s.host = ⟨true, w⟩ :: rest → w.extractLsb' 0 3 = 0 →
    (w.extractLsb' 8 8).toNat < 4 → (w.extractLsb' 16 8).toNat < 16 → (w.extractLsb' 24 8).toNat < 4 →
    ∃ t, step s = .next t ∧ rspStatus t.rsp = 0 ∧
      ∀ (s' : State) (rest' : List Drive), s'.host = ⟨true, t.rsp ||| 1⟩ :: rest' →
        ∃ u, step s' = .next u ∧ u.rsp = w &&& 0x00FFFFFF00) ∧
  (∀ (s : State) (b : Byte), ∃ m t f : Lane, m.toNat < 4 ∧ t.toNat < 16 ∧ f.toNat < 4 ∧
    ∃ u, exec (.pack m t f) s = .next u ∧ rspStatus u.rsp = 0 ∧ rspA u.rsp = b)

/-! ### The directional variants -/

/-- R111: RESOLVE_TYPE, its response word for each of the 32 cases; 0 is "no symbol, not an error". -/
def Obligations.ResolveTypeResult : Prop :=
  (∀ w : ReqWord, w.extractLsb' 0 3 = 2 → decodeReq w =
    .ok (.resolveType (if w.extractLsb' 3 1 = 0 then .entityToCenter else .centerToEntity) (w.extractLsb' 16 4))) ∧
  (∀ (s : State) (d : Direction) (raw : BitVec 4),
    exec (.resolveType d raw) s = .next { s with
      rspValid := true
      rsp := match d, raw.toNat with
        | .entityToCenter, 0 => 0x0000000020
        | .entityToCenter, 2 => 0x0400000020
        | .entityToCenter, 4 => 0x0800000020
        | .centerToEntity, 0 => 0x0000000020
        | .centerToEntity, 1 => 0x0C00000020
        | .centerToEntity, 2 => 0x1000000020
        | .centerToEntity, 4 => 0x1400000020
        | .centerToEntity, 6 => 0x1800000020
        | .centerToEntity, 8 => 0x1C00000020
        | _, _ => 0 })

/-- R112: RESOLVE_MODE, its response word for each case; no mode resolves center to entity. -/
def Obligations.ResolveModeResult : Prop :=
  (∀ w : ReqWord, w.extractLsb' 0 3 = 3 → decodeReq w =
    .ok (.resolveMode (if w.extractLsb' 3 1 = 0 then .entityToCenter else .centerToEntity) (w.extractLsb' 8 2))) ∧
  (∀ (s : State) (raw : BitVec 2),
    exec (.resolveMode .entityToCenter raw) s =
      .next { s with rspValid := true, rsp := raw.setWidth 40 <<< 32 ||| 0x0000000010 } ∧
    exec (.resolveMode .centerToEntity raw) s = .next { s with rspValid := true, rsp := 0 })

/-- R113, R121: RESOLVE_FEATURE, its response word; the feature symbol is never absent. -/
def Obligations.ResolveFeatureResult : Prop :=
  (∀ w : ReqWord, w.extractLsb' 0 3 = 4 → decodeReq w = .ok (.resolveFeature (w.extractLsb' 24 2))) ∧
  (∀ (s : State) (raw : BitVec 2),
    exec (.resolveFeature raw) s =
      .next { s with rspValid := true, rsp := raw.setWidth 40 <<< 37 ||| 0x0000000040 })

/-- R122: direction isolation. Raw 1, 6 and 8 resolve only center to entity; 0, 2 and 4 under both; the rest under neither; and raw
2 and 4 resolve to different symbols. -/
def Obligations.DirectionIsolation : Prop :=
  ∀ (s : State) (raw : BitVec 4), ∃ t u,
    exec (.resolveType .entityToCenter raw) s = .next t ∧ exec (.resolveType .centerToEntity raw) s = .next u ∧
    (rspTypeSv t.rsp = 1 ↔ raw = 0 ∨ raw = 2 ∨ raw = 4) ∧
    (rspTypeSv u.rsp = 1 ↔ raw = 0 ∨ raw = 1 ∨ raw = 2 ∨ raw = 4 ∨ raw = 6 ∨ raw = 8) ∧
    ((raw = 2 ∨ raw = 4) → rspTypeSym t.rsp ≠ rspTypeSym u.rsp)

/-- R115 with R114: ENCODE. A foreign symbol gives status 2; else a raw number that does not fit gives status 1; else the byte, with
every other response field 0. The raw number of a member is its symbol's code, or its lane if no symbol was given. -/
def Obligations.EncodeResult : Prop :=
  (∀ w : ReqWord, w.extractLsb' 0 3 = 5 → decodeReq w = .ok (.encode {
    dir := if w.extractLsb' 3 1 = 0 then .entityToCenter else .centerToEntity
    mode := ⟨w.extractLsb' 8 8, if w.extractLsb' 4 1 = 1 then some (modeOfId (w.extractLsb' 32 2)) else none⟩
    type := ⟨w.extractLsb' 16 8, if w.extractLsb' 5 1 = 1 then some (typeOfId (w.extractLsb' 34 3)) else none⟩
    feature := ⟨w.extractLsb' 24 8, if w.extractLsb' 6 1 = 1 then some (featOfId (w.extractLsb' 37 2)) else none⟩ })) ∧
  (∀ (s : State) (v : AttributeValue),
    let foreign := (∃ x, v.mode.sym = some x ∧ modeMember v.dir x = false) ∨
      (∃ x, v.type.sym = some x ∧ typeMember v.dir x = false)
    let m : Lane := v.mode.sym.elim v.mode.raw (fun x => (modeCode x).setWidth 8)
    let t : Lane := v.type.sym.elim v.type.raw (fun x => (typeCode x).setWidth 8)
    let f : Lane := v.feature.sym.elim v.feature.raw (fun x => (featCode x).setWidth 8)
    (foreign → ∃ (x : RspWord) (n : Nat),
      exec (.encode v) s = .next { s with rspValid := true, rsp := x, draws := n } ∧ x.extractLsb' 0 2 = 2) ∧
    (¬foreign → (4 ≤ m.toNat ∨ 16 ≤ t.toNat ∨ 4 ≤ f.toNat) → ∃ (x : RspWord) (n : Nat),
      exec (.encode v) s = .next { s with rspValid := true, rsp := x, draws := n } ∧ x.extractLsb' 0 2 = 1) ∧
    (¬foreign → m.toNat < 4 → t.toNat < 16 → f.toNat < 4 →
      exec (.encode v) s =
        .next { s with rspValid := true, rsp := (((f <<< 6) ||| (t <<< 2) ||| m : Byte).setWidth 40) <<< 8 }))

/-- R114: "When a symbol is supplied the lane is not read at all". Two values with the same direction and symbols, and the same lane
wherever no symbol is given, encode alike. That a failure's bits 39:2 agree too is the model's choice (log entry 15). -/
def Obligations.EncodeIgnoresLaneBesideSymbol : Prop :=
  ∀ (s : State) (v v' : AttributeValue), v'.dir = v.dir →
    v'.mode.sym = v.mode.sym → v'.type.sym = v.type.sym → v'.feature.sym = v.feature.sym →
    (v.mode.sym = none → v'.mode.raw = v.mode.raw) → (v.type.sym = none → v'.type.raw = v.type.raw) →
    (v.feature.sym = none → v'.feature.raw = v.feature.raw) →
    exec (.encode v') s = exec (.encode v) s

/-- R115, corner case 6: with no symbol given, ENCODE gives the same status and byte as PACK on the same lanes, for either direction.
That a failure's bits 39:2 agree too is the model's choice (log entry 15). -/
def Obligations.EncodeOfRawNumbersIsPack : Prop :=
  ∀ (s : State) (d : Direction) (a b c : Lane),
    exec (.encode ⟨d, ⟨a, none⟩, ⟨b, none⟩, ⟨c, none⟩⟩) s = exec (.pack a b c) s

/-- R142: ENCODE answers InvalidForDirection exactly when a symbol foreign to the direction is supplied, by the rule's own lists; no
other operation does. A raw number never causes it. -/
def Obligations.InvalidForDirectionCauses : Prop :=
  ∀ (i : Instr) (s t : State), exec i s = .next t →
    (rspStatus t.rsp = 2 ↔ ∃ v, i = .encode v ∧
      ((v.dir = .entityToCenter ∧ (v.type.sym = some .smeDeliveryReceipt ∨ v.type.sym = some .smeDeliveryAck ∨
          v.type.sym = some .smeUserAck ∨ v.type.sym = some .conversationAbort ∨ v.type.sym = some .intermediate)) ∨
        (v.dir = .centerToEntity ∧ (v.type.sym = some .esmeDeliveryAck ∨ v.type.sym = some .esmeUserAck ∨
          ∃ x, v.mode.sym = some x))))

/-- R141, R146: OutOfRange is answered by PACK when a lane does not fit, and by ENCODE when no foreign symbol is supplied and a lane
used directly does not fit; by no other operation. -/
def Obligations.OutOfRangeCauses : Prop :=
  ∀ (i : Instr) (s t : State), exec i s = .next t →
    (rspStatus t.rsp = 1 ↔
      (∃ m t f, i = .pack m t f ∧ (4 ≤ m.toNat ∨ 16 ≤ t.toNat ∨ 4 ≤ f.toNat)) ∨
      (∃ v, i = .encode v ∧
        (∀ x, v.mode.sym = some x → modeMember v.dir x = true) ∧ (∀ x, v.type.sym = some x → typeMember v.dir x = true) ∧
        ((v.mode.sym = none ∧ 4 ≤ v.mode.raw.toNat) ∨ (v.type.sym = none ∧ 16 ≤ v.type.raw.toNat) ∨
          (v.feature.sym = none ∧ 4 ≤ v.feature.raw.toNat))))

/-- R116: DECODE, every bit of its response. Bits 2, 7 and 39 are 0, the raw numbers are UNPACK's, and each symbol is its table's
entry with its `_sv` bit, or absent with both 0. -/
def Obligations.DecodeResult : Prop :=
  (∀ w : ReqWord, w.extractLsb' 0 3 = 6 → decodeReq w =
    .ok (.decode (if w.extractLsb' 3 1 = 0 then .entityToCenter else .centerToEntity) (w.extractLsb' 8 8))) ∧
  (∀ (s : State) (d : Direction) (b : Byte), ∃ x : RspWord,
    exec (.decode d b) s = .next { s with rspValid := true, rsp := x } ∧
    x.extractLsb' 0 2 = 0 ∧ x.extractLsb' 2 1 = 0 ∧ x.extractLsb' 7 1 = 0 ∧ x.extractLsb' 39 1 = 0 ∧
    x.extractLsb' 3 1 = (match d with | .entityToCenter => 0 | .centerToEntity => 1) ∧
    x.extractLsb' 8 8 = b &&& 0b00000011 ∧ x.extractLsb' 16 8 = (b &&& 0b00111100) >>> 2 ∧
    x.extractLsb' 24 8 = (b &&& 0b11000000) >>> 6 ∧
    (match modeSymOf d (b.extractLsb' 0 2) with
      | some y => x.extractLsb' 4 1 = 1 ∧ x.extractLsb' 32 2 = modeId y
      | none => x.extractLsb' 4 1 = 0 ∧ x.extractLsb' 32 2 = 0) ∧
    (match typeSymOf d (b.extractLsb' 2 4) with
      | some y => x.extractLsb' 5 1 = 1 ∧ x.extractLsb' 34 3 = typeId y
      | none => x.extractLsb' 5 1 = 0 ∧ x.extractLsb' 34 3 = 0) ∧
    x.extractLsb' 6 1 = 1 ∧ x.extractLsb' 37 2 = featId (featSymOf (b.extractLsb' 6 2)))

/-- R118: the attribute value a DECODE response carries is well-formed (R33) and carries the requested direction. -/
def Obligations.DecodedValueWellFormed : Prop :=
  ∀ (s : State) (d : Direction) (b : Byte), ∃ t, exec (.decode d b) s = .next t ∧
    (rspValue t.rsp).dir = d ∧ (rspValue t.rsp).wellFormed = true

/-- R119, R80: present a DECODE response with `op` set to 5, in any state, and ENCODE answers status 0 with the byte that was
decoded, every other field 0. -/
def Obligations.EncodeAfterDecodeGivesByte : Prop :=
  ∀ (s : State) (w : ReqWord) (rest : List Drive), s.host = ⟨true, w⟩ :: rest → w.extractLsb' 0 3 = 6 →
    ∃ t, step s = .next t ∧ rspStatus t.rsp = 0 ∧
      ∀ (s' : State) (rest' : List Drive), s'.host = ⟨true, t.rsp ||| 0x0000000005⟩ :: rest' →
        ∃ u, step s' = .next u ∧ u.rsp = (w.extractLsb' 8 8).setWidth 40 <<< 8

/-- R120: if ENCODE succeeds with a byte, DECODE of that byte under the same direction gives the canonical form of the value: the raw
numbers of R114, symbols as the tables give them, and every supplied symbol unchanged. The DECODE may come in any state. -/
def Obligations.DecodeAfterEncodeGivesCanonicalValue : Prop :=
  ∀ (s t : State) (v : AttributeValue), exec (.encode v) s = .next t → rspStatus t.rsp = 0 →
    ∀ s' : State, ∃ u, exec (.decode v.dir (rspA t.rsp)) s' = .next u ∧
      (rspValue u.rsp).wellFormed = true ∧ (rspValue u.rsp).dir = v.dir ∧
      (rspValue u.rsp).mode.raw = v.mode.sym.elim v.mode.raw (fun x => (modeCode x).setWidth 8) ∧
      (rspValue u.rsp).type.raw = v.type.sym.elim v.type.raw (fun x => (typeCode x).setWidth 8) ∧
      (rspValue u.rsp).feature.raw = v.feature.sym.elim v.feature.raw (fun x => (featCode x).setWidth 8) ∧
      (∀ x, v.mode.sym = some x → (rspValue u.rsp).mode.sym = some x) ∧
      (∀ x, v.type.sym = some x → (rspValue u.rsp).type.sym = some x) ∧
      (∀ x, v.feature.sym = some x → (rspValue u.rsp).feature.sym = some x)

/-! ### Whole-machine rules -/

/-- R150, R117: UNPACK, the three RESOLVE operations and DECODE answer status 0 for every request word. -/
def Obligations.ReadPathNeverFails : Prop :=
  ∀ (s : State) (w : ReqWord) (rest : List Drive), s.host = ⟨true, w⟩ :: rest →
    (w.extractLsb' 0 3 = 1 ∨ w.extractLsb' 0 3 = 2 ∨ w.extractLsb' 0 3 = 3 ∨ w.extractLsb' 0 3 = 4 ∨ w.extractLsb' 0 3 = 6) →
    ∃ t, step s = .next t ∧ t.rspValid = true ∧ rspStatus t.rsp = 0

/-- An operation succeeds exactly when its operands are the accepted ones: R91's ranges, and for ENCODE also R115's
memberships. -/
def Obligations.SucceedsIffOperandsAccepted : Prop :=
  ∀ (i : Instr) (s : State), ∃ t, exec i s = .next t ∧ (rspStatus t.rsp = 0 ↔ i.wellFormed = true)

/-- R70, R72: in every response with status 0, bits 2, 7 and 39 are 0, a symbol id is 0 when its `_sv` bit is 0, and `dir` is 0
unless the request was a DECODE, where it is the request's. -/
def Obligations.SuccessfulResponseLayout : Prop :=
  ∀ (s : State) (w : ReqWord) (rest : List Drive), s.host = ⟨true, w⟩ :: rest →
    ∃ t, step s = .next t ∧ t.rspValid = true ∧ (rspStatus t.rsp = 0 →
      t.rsp.extractLsb' 2 1 = 0 ∧ t.rsp.extractLsb' 7 1 = 0 ∧ t.rsp.extractLsb' 39 1 = 0 ∧
      (t.rsp.extractLsb' 4 1 = 0 → t.rsp.extractLsb' 32 2 = 0) ∧
      (t.rsp.extractLsb' 5 1 = 0 → t.rsp.extractLsb' 34 3 = 0) ∧
      (t.rsp.extractLsb' 6 1 = 0 → t.rsp.extractLsb' 37 2 = 0) ∧
      t.rsp.extractLsb' 3 1 = if w.extractLsb' 0 3 = 6 then w.extractLsb' 3 1 else 0)

/-- R27: the direction has no effect on the byte ENCODE makes of raw numbers, nor on the raw numbers DECODE makes of a byte.
That the bits 39:2 of a failed ENCODE agree too is the model's choice (log entry 15). -/
def Obligations.DirectionLeavesRawNumbersAlone : Prop :=
  (∀ (s : State) (a b c : Lane),
    exec (.encode ⟨.entityToCenter, ⟨a, none⟩, ⟨b, none⟩, ⟨c, none⟩⟩) s =
      exec (.encode ⟨.centerToEntity, ⟨a, none⟩, ⟨b, none⟩, ⟨c, none⟩⟩) s) ∧
  (∀ (s : State) (b : Byte), ∃ t u, exec (.decode .entityToCenter b) s = .next t ∧ exec (.decode .centerToEntity b) s = .next u ∧
    rspA t.rsp = rspA u.rsp ∧ rspB t.rsp = rspB u.rsp ∧ rspC t.rsp = rspC u.rsp ∧ rspFeatSym t.rsp = rspFeatSym u.rsp)
end

