-- ==== Sys2Proof/Laws/Bits.lean ====
section
/-! SUPPORT. The bit fields of the port words: reading a field back out of `putBits`, `portWord`, `payloadWord` and `errorWord`. -/

namespace Sys2Proof

theorem getLsbD_putBits {n lo i : Nat} (v : BitVec n) (hi : i < 40) :
    (putBits lo v).getLsbD i = (decide (lo ≤ i) && v.getLsbD (i - lo)) := by
  unfold putBits
  by_cases h : i < lo
  · simp [hi, h]
  · simp [hi, h, Nat.le_of_not_lt h]

theorem extract_putBits_same {n lo : Nat} (v : BitVec n) (h : lo + n ≤ 40) :
    (putBits lo v).extractLsb' lo n = v := by
  apply BitVec.eq_of_getLsbD_eq
  intro i hi
  have hlo : lo + i < 40 := by omega
  simp [getLsbD_putBits v hlo, hi]

theorem extract_putBits_below {n lo p k : Nat} (v : BitVec n) (h : p + k ≤ lo) :
    (putBits lo v).extractLsb' p k = 0 := by
  apply BitVec.eq_of_getLsbD_eq
  intro i hi
  by_cases h40 : p + i < 40
  · have : ¬ lo ≤ p + i := by omega
    simp [getLsbD_putBits v h40, this]
  · simp [BitVec.getLsbD_of_ge _ _ (Nat.le_of_not_lt h40)]

theorem extract_putBits_above {n lo p k : Nat} (v : BitVec n) (h : lo + n ≤ p) :
    (putBits lo v).extractLsb' p k = 0 := by
  apply BitVec.eq_of_getLsbD_eq
  intro i hi
  by_cases h40 : p + i < 40
  · have : n ≤ p + i - lo := by omega
    simp [getLsbD_putBits v h40, BitVec.getLsbD_of_ge _ _ this]
  · simp [BitVec.getLsbD_of_ge _ _ (Nat.le_of_not_lt h40)]

section
variable (low : BitVec 3) (dir msv tsv fsv : BitVec 1) (a b c : Lane) (ms : BitVec 2) (ts : BitVec 3) (fs : BitVec 2)

@[simp] theorem reqOp_portWord : reqOp (portWord low dir msv tsv fsv a b c ms ts fs) = low := by
  simp (disch := decide) only [reqOp, portWord, BitVec.extractLsb'_or, extract_putBits_same, extract_putBits_below]
  simp

@[simp] theorem reqDir_portWord : reqDir (portWord low dir msv tsv fsv a b c ms ts fs) = dir := by
  simp (disch := decide) only [reqDir, portWord, BitVec.extractLsb'_or, extract_putBits_same, extract_putBits_below,
    extract_putBits_above]
  simp

@[simp] theorem reqModeSv_portWord : reqModeSv (portWord low dir msv tsv fsv a b c ms ts fs) = msv := by
  simp (disch := decide) only [reqModeSv, portWord, BitVec.extractLsb'_or, extract_putBits_same, extract_putBits_below,
    extract_putBits_above]
  simp

@[simp] theorem reqTypeSv_portWord : reqTypeSv (portWord low dir msv tsv fsv a b c ms ts fs) = tsv := by
  simp (disch := decide) only [reqTypeSv, portWord, BitVec.extractLsb'_or, extract_putBits_same, extract_putBits_below,
    extract_putBits_above]
  simp

@[simp] theorem reqFeatSv_portWord : reqFeatSv (portWord low dir msv tsv fsv a b c ms ts fs) = fsv := by
  simp (disch := decide) only [reqFeatSv, portWord, BitVec.extractLsb'_or, extract_putBits_same, extract_putBits_below,
    extract_putBits_above]
  simp

@[simp] theorem reqA_portWord : reqA (portWord low dir msv tsv fsv a b c ms ts fs) = a := by
  simp (disch := decide) only [reqA, portWord, BitVec.extractLsb'_or, extract_putBits_same, extract_putBits_below,
    extract_putBits_above]
  simp

@[simp] theorem reqB_portWord : reqB (portWord low dir msv tsv fsv a b c ms ts fs) = b := by
  simp (disch := decide) only [reqB, portWord, BitVec.extractLsb'_or, extract_putBits_same, extract_putBits_below,
    extract_putBits_above]
  simp

@[simp] theorem reqC_portWord : reqC (portWord low dir msv tsv fsv a b c ms ts fs) = c := by
  simp (disch := decide) only [reqC, portWord, BitVec.extractLsb'_or, extract_putBits_same, extract_putBits_below,
    extract_putBits_above]
  simp

@[simp] theorem reqModeSym_portWord : reqModeSym (portWord low dir msv tsv fsv a b c ms ts fs) = ms := by
  simp (disch := decide) only [reqModeSym, portWord, BitVec.extractLsb'_or, extract_putBits_same, extract_putBits_below,
    extract_putBits_above]
  simp

@[simp] theorem reqTypeSym_portWord : reqTypeSym (portWord low dir msv tsv fsv a b c ms ts fs) = ts := by
  simp (disch := decide) only [reqTypeSym, portWord, BitVec.extractLsb'_or, extract_putBits_same, extract_putBits_below,
    extract_putBits_above]
  simp

@[simp] theorem reqFeatSym_portWord : reqFeatSym (portWord low dir msv tsv fsv a b c ms ts fs) = fs := by
  simp (disch := decide) only [reqFeatSym, portWord, BitVec.extractLsb'_or, extract_putBits_same, extract_putBits_above]
  simp

/-- Bits 7 and 39 belong to no field (R61, R70). -/
@[simp] theorem extract_seven_portWord : (portWord low dir msv tsv fsv a b c ms ts fs).extractLsb' 7 1 = 0 := by
  simp (disch := decide) only [portWord, BitVec.extractLsb'_or, extract_putBits_below, extract_putBits_above]
  simp

@[simp] theorem extract_thirty_nine_portWord : (portWord low dir msv tsv fsv a b c ms ts fs).extractLsb' 39 1 = 0 := by
  simp (disch := decide) only [portWord, BitVec.extractLsb'_or, extract_putBits_above]
  simp

/-- Setting low bits of a port word (R80): only the bits 2:0 change. -/
theorem portWord_or_low (l : BitVec 3) :
    portWord low dir msv tsv fsv a b c ms ts fs ||| putBits 0 l
      = portWord (low ||| l) dir msv tsv fsv a b c ms ts fs := by
  have h : putBits 0 (low ||| l) = putBits 0 low ||| putBits 0 l := by
    apply BitVec.eq_of_getLsbD_eq
    intro i hi
    simp only [BitVec.getLsbD_or, getLsbD_putBits _ hi, Bool.and_or_distrib_left]
  have swap : ∀ x y : BitVec 40, x ||| y ||| putBits 0 l = x ||| putBits 0 l ||| y := fun x y => by
    rw [BitVec.or_assoc, BitVec.or_comm y, ← BitVec.or_assoc]
  simp only [portWord, h, swap]

end

/-- A field `w[lo+n-1:lo]` put back where it was is `w` with every other bit 0. -/
theorem putBits_extract (w : BitVec 40) {lo n i : Nat} (hi : i < 40) :
    (putBits lo (w.extractLsb' lo n)).getLsbD i = (decide (lo ≤ i) && (decide (i < lo + n) && w.getLsbD i)) := by
  rw [getLsbD_putBits _ hi, BitVec.getLsbD_extractLsb']
  by_cases h : lo ≤ i
  · have e : lo + (i - lo) = i := by omega
    have e2 : decide (i - lo < n) = decide (i < lo + n) := by
      apply decide_eq_decide.mpr
      omega
    simp [h, e, e2]
  · simp [h]

/-- A word in which bits 7 and 39 are 0 is made of its fields (R61). -/
theorem portWord_fields (w : ReqWord) (h7 : w[7] = false) (h39 : w[39] = false) :
    portWord (reqOp w) (reqDir w) (reqModeSv w) (reqTypeSv w) (reqFeatSv w) (reqA w) (reqB w) (reqC w)
      (reqModeSym w) (reqTypeSym w) (reqFeatSym w) = w := by
  apply BitVec.eq_of_getLsbD_eq
  intro i hi
  simp only [portWord, BitVec.getLsbD_or, reqOp, reqDir, reqModeSv, reqTypeSv, reqFeatSv, reqA, reqB, reqC, reqModeSym,
    reqTypeSym, reqFeatSym, putBits_extract w hi]
  interval_cases i <;> simp [h7, h39]

namespace Machine

theorem status_portWord (low : BitVec 3) (dir msv tsv fsv : BitVec 1) (a b c : Lane) (ms : BitVec 2) (ts : BitVec 3)
    (fs : BitVec 2) : rspStatus (portWord low dir msv tsv fsv a b c ms ts fs) = low.setWidth 2 := by
  have h : rspStatus (portWord low dir msv tsv fsv a b c ms ts fs)
      = (reqOp (portWord low dir msv tsv fsv a b c ms ts fs)).setWidth 2 := by
    apply BitVec.eq_of_getLsbD_eq
    intro i hi
    have : i < 3 := by omega
    simp [rspStatus, reqOp, hi, this]
  rw [h, reqOp_portWord]

@[simp] theorem rspStatus_payloadWord (p : Payload) : rspStatus (payloadWord p) = okCode := by
  rw [payloadWord, status_portWord]
  rfl

@[simp] theorem rspDir_payloadWord (p : Payload) : rspDir (payloadWord p) = p.dir := reqDir_portWord ..
@[simp] theorem rspModeSv_payloadWord (p : Payload) : rspModeSv (payloadWord p) = svBit p.modeSym := reqModeSv_portWord ..
@[simp] theorem rspTypeSv_payloadWord (p : Payload) : rspTypeSv (payloadWord p) = svBit p.typeSym := reqTypeSv_portWord ..
@[simp] theorem rspFeatSv_payloadWord (p : Payload) : rspFeatSv (payloadWord p) = svBit p.featSym := reqFeatSv_portWord ..
@[simp] theorem rspA_payloadWord (p : Payload) : rspA (payloadWord p) = p.a := reqA_portWord ..
@[simp] theorem rspB_payloadWord (p : Payload) : rspB (payloadWord p) = p.b := reqB_portWord ..
@[simp] theorem rspC_payloadWord (p : Payload) : rspC (payloadWord p) = p.c := reqC_portWord ..
@[simp] theorem rspModeSym_payloadWord (p : Payload) : rspModeSym (payloadWord p) = idBits modeId p.modeSym :=
  reqModeSym_portWord ..
@[simp] theorem rspTypeSym_payloadWord (p : Payload) : rspTypeSym (payloadWord p) = idBits typeId p.typeSym :=
  reqTypeSym_portWord ..
@[simp] theorem rspFeatSym_payloadWord (p : Payload) : rspFeatSym (payloadWord p) = idBits featId p.featSym :=
  reqFeatSym_portWord ..

@[simp] theorem rspStatus_errorWord (e : ErrorKind) (x : BitVec 38) : rspStatus (errorWord e x) = errorCode e := by
  simp (disch := decide) only [rspStatus, errorWord, BitVec.extractLsb'_or, extract_putBits_same, extract_putBits_below]
  simp

/-- A failure's status is never OK (R71). -/
@[simp] theorem errorCode_ne_ok (e : ErrorKind) : errorCode e ≠ okCode := by
  cases e <;> decide

end Machine

end Sys2Proof
end

