-- ==== Sys2Proof/Laws/Codec.lean ====
section
/-! SUPPORT. What the codec's shared functions answer: extraction, insertion and PACK's logic, which ENCODE delegates to. -/

namespace Sys2Proof.Machine

/-- The geometry in numbers (R7, R90). -/
theorem geometry_mode : subLimit .mode = 4 ∧ subMask .mode = 0x03 ∧ subOffset .mode = 0 := by decide
theorem geometry_type : subLimit .type = 16 ∧ subMask .type = 0x3C ∧ subOffset .type = 2 := by decide
theorem geometry_feature : subLimit .feature = 4 ∧ subMask .feature = 0xC0 ∧ subOffset .feature = 6 := by decide

@[simp] theorem fitsSub_mode (v : Lane) : fitsSub .mode v = decide (v.toNat < 4) := rfl
@[simp] theorem fitsSub_type (v : Lane) : fitsSub .type v = decide (v.toNat < 16) := rfl
@[simp] theorem fitsSub_feature (v : Lane) : fitsSub .feature v = decide (v.toNat < 4) := rfl

/-- An extracted number fits its sub-field (R92). -/
theorem extractSub_lt (k : SubField) (b : Byte) : (extractSub k b).toNat < subLimit k := by
  revert b; cases k <;> decide

/-- PACK's logic has two outcomes: the byte when all three numbers fit, else OutOfRange (R91). -/
theorem packResponse_cases (m t f : Lane) :
    (m.toNat < 4 ∧ t.toNat < 16 ∧ f.toNat < 4 ∧ packResponse m t f = .ok { a := packByte m t f }) ∨
    ((4 ≤ m.toNat ∨ 16 ≤ t.toNat ∨ 4 ≤ f.toNat) ∧ packResponse m t f = .error .outOfRange) := by
  unfold packResponse
  by_cases h : m.toNat < 4 ∧ t.toNat < 16 ∧ f.toNat < 4
  · exact .inl ⟨h.1, h.2.1, h.2.2, by simp [h]⟩
  · refine .inr ⟨by omega, ?_⟩
    rw [if_neg]
    simp only [fitsSub_mode, fitsSub_type, fitsSub_feature, Bool.and_eq_true, decide_eq_true_eq]
    omega

theorem packResponse_ok {m t f : Lane} (hm : m.toNat < 4) (ht : t.toNat < 16) (hf : f.toNat < 4) :
    packResponse m t f = .ok { a := packByte m t f } := by
  simp [packResponse, hm, ht, hf]

/-- The validator's answer on ENCODE's value (R115 step 1). -/
theorem foreignValue_iff (v : AttributeValue) : foreignValue v = true ↔
    (∃ x, v.mode.sym = some x ∧ modeMember v.dir x = false) ∨ (∃ x, v.type.sym = some x ∧ typeMember v.dir x = false) := by
  rcases v with ⟨d, ⟨_, ms⟩, ⟨_, ts⟩, _⟩
  cases ms <;> cases ts <;> simp [foreignValue, foreignSym]

/-- ENCODE's logic has three outcomes (R115, R146). -/
theorem encodeResponse_cases (v : AttributeValue) :
    (foreignValue v = true ∧ encodeResponse v = .error .invalidForDirection) ∨
    (foreignValue v = false ∧ encodeResponse v = packResponse (modeRaw v.mode) (typeRaw v.type) (featureRaw v.feature)) := by
  unfold encodeResponse
  cases foreignValue v <;> simp

end Sys2Proof.Machine
end

