-- ==== Sys2Proof/Laws/Decode.lean ====
section
/-! SUPPORT. The small lemmas of the codes, the optional symbols and the decoder: one per operation code, so that no proof unfolds
the decoder. -/

namespace Sys2Proof

@[simp] theorem dirOfCode_dirCode (d : Direction) : dirOfCode (dirCode d) = d := by cases d <;> rfl
@[simp] theorem dirCode_dirOfCode (c : BitVec 1) : dirCode (dirOfCode c) = c := by revert c; decide
@[simp] theorem modeOfId_modeId (s : ModeSymbol) : modeOfId (modeId s) = s := by cases s <;> rfl
@[simp] theorem modeId_modeOfId (x : BitVec 2) : modeId (modeOfId x) = x := by revert x; decide
@[simp] theorem typeOfId_typeId (s : TypeSymbol) : typeOfId (typeId s) = s := by cases s <;> rfl
@[simp] theorem typeId_typeOfId (x : BitVec 3) : typeId (typeOfId x) = x := by revert x; decide
@[simp] theorem featOfId_featId (s : FeatureSymbol) : featOfId (featId s) = s := by cases s <;> rfl
@[simp] theorem featId_featOfId (x : BitVec 2) : featId (featOfId x) = x := by revert x; decide

/-- An optional symbol put into its two fields and read back. -/
@[simp] theorem symOfBits_bits {S : Type} {n : Nat} (ofId : BitVec n → S) (id : S → BitVec n) (sym : Option S)
    (h : ∀ s, ofId (id s) = s) : symOfBits ofId (svBit sym) (idBits id sym) = sym := by
  cases sym with
  | none => rfl
  | some s => simp [symOfBits, svBit, idBits, h]

section
variable {w : ReqWord}

theorem decodeReq_pack (h : reqOp w = 0) : decodeReq w = .ok (.pack (reqA w) (reqB w) (reqC w)) := by
  simp [decodeReq, h]

theorem decodeReq_unpack (h : reqOp w = 1) : decodeReq w = .ok (.unpack (reqA w)) := by
  simp [decodeReq, h]

theorem decodeReq_resolveType (h : reqOp w = 2) :
    decodeReq w = .ok (.resolveType (dirOfCode (reqDir w)) ((reqB w).setWidth 4)) := by
  simp [decodeReq, h]

theorem decodeReq_resolveMode (h : reqOp w = 3) :
    decodeReq w = .ok (.resolveMode (dirOfCode (reqDir w)) ((reqA w).setWidth 2)) := by
  simp [decodeReq, h]

theorem decodeReq_resolveFeature (h : reqOp w = 4) :
    decodeReq w = .ok (.resolveFeature ((reqC w).setWidth 2)) := by
  simp [decodeReq, h]

theorem decodeReq_encode (h : reqOp w = 5) : decodeReq w = .ok (.encode (reqValue w)) := by
  simp [decodeReq, h]

theorem decodeReq_decode (h : reqOp w = 6) :
    decodeReq w = .ok (.decode (dirOfCode (reqDir w)) (reqA w)) := by
  simp [decodeReq, h]

theorem decodeReq_illegal (h : reqOp w = 7) : decodeReq w = .error .illegalOp := by
  simp [decodeReq, h]

/-! The bits each format reads (R62). -/

theorem readMask_pack (h : reqOp w = 0) : readMask w = 0x00FFFFFF07 := by simp [readMask, h]
theorem readMask_unpack (h : reqOp w = 1) : readMask w = 0x000000FF07 := by simp [readMask, h]
theorem readMask_resolveType (h : reqOp w = 2) : readMask w = 0x00000F000F := by simp [readMask, h]
theorem readMask_resolveMode (h : reqOp w = 3) : readMask w = 0x000000030F := by simp [readMask, h]
theorem readMask_resolveFeature (h : reqOp w = 4) : readMask w = 0x0003000007 := by simp [readMask, h]
theorem readMask_encode (h : reqOp w = 5) : readMask w =
    0x000000007F ||| (if reqModeSv w = 1#1 then 0x0300000000 else 0x000000FF00)
      ||| (if reqTypeSv w = 1#1 then 0x1C00000000 else 0x0000FF0000)
      ||| (if reqFeatSv w = 1#1 then 0x6000000000 else 0x00FF000000) := by simp [readMask, h]
theorem readMask_decode (h : reqOp w = 6) : readMask w = 0x000000FF0F := by simp [readMask, h]
theorem readMask_illegal (h : reqOp w = 7) : readMask w = 0x0000000007 := by simp [readMask, h]

/-- The low bits of a field are the narrower field. -/
theorem setWidth_extract (w : BitVec 40) {lo n m : Nat} (h : m ≤ n) :
    (w.extractLsb' lo n).setWidth m = w.extractLsb' lo m := by
  apply BitVec.eq_of_getLsbD_eq
  intro k hk
  have : k < n := by omega
  simp [hk, this]

end

/-- The operation code is one of eight (R64). -/
theorem reqOp_cases (w : ReqWord) : reqOp w = 0 ∨ reqOp w = 1 ∨ reqOp w = 2 ∨ reqOp w = 3 ∨ reqOp w = 4 ∨ reqOp w = 5
    ∨ reqOp w = 6 ∨ reqOp w = 7 := by
  generalize reqOp w = x
  revert x
  decide

namespace Machine

/-- The attribute value a successful response carries, from its payload (R33, R70). -/
theorem rspValue_payloadWord (p : Payload) :
    rspValue (payloadWord p) = ⟨dirOfCode p.dir, ⟨p.a, p.modeSym⟩, ⟨p.b, p.typeSym⟩, ⟨p.c, p.featSym⟩⟩ := by
  simp [rspValue]

/-- A successful response read as a request word (R70 mirrors R61): the same attribute value. -/
theorem reqValue_payloadWord_or (p : Payload) (l : BitVec 3) :
    reqValue (payloadWord p ||| putBits 0 l)
      = ⟨dirOfCode p.dir, ⟨p.a, p.modeSym⟩, ⟨p.b, p.typeSym⟩, ⟨p.c, p.featSym⟩⟩ := by
  rw [payloadWord, portWord_or_low]
  simp [reqValue]

/-- The operation code of a successful response with low bits set (R80). -/
theorem reqOp_payloadWord_or (p : Payload) (l : BitVec 3) : reqOp (payloadWord p ||| putBits 0 l) = l := by
  rw [payloadWord, portWord_or_low]
  simp [okCode]

end Machine

end Sys2Proof
end

