-- ==== Sys2Proof/Laws/PerInstr.lean ====
section
/-! SUPPORT. Per-instruction families: `OpField`, the encoding carries the operation code of its row (R64); `Unused`, the encoder
writes the two unused bits 0 (R61, R77). -/

namespace Sys2Proof.Laws.OpField

/-- The word's bits 2:0 are the instruction's operation code (R64). -/
def Statement (i : Instr) : Prop := (encodeReq i).extractLsb' 0 3 = opCode i

theorem pack (m t f : Lane) : Statement (.pack m t f) := reqOp_portWord ..
theorem unpack (b : Byte) : Statement (.unpack b) := reqOp_portWord ..
theorem resolveType (d : Direction) (r : BitVec 4) : Statement (.resolveType d r) := reqOp_portWord ..
theorem resolveMode (d : Direction) (r : BitVec 2) : Statement (.resolveMode d r) := reqOp_portWord ..
theorem resolveFeature (r : BitVec 2) : Statement (.resolveFeature r) := reqOp_portWord ..
theorem encode (v : AttributeValue) : Statement (.encode v) := reqOp_portWord ..
theorem decode (d : Direction) (b : Byte) : Statement (.decode d b) := reqOp_portWord ..

end Sys2Proof.Laws.OpField

namespace Sys2Proof.Laws.Unused

/-- The word's bits 7 and 39 are 0 (R61, R77). -/
def Statement (i : Instr) : Prop := (encodeReq i).extractLsb' 7 1 = 0 ∧ (encodeReq i).extractLsb' 39 1 = 0

theorem pack (m t f : Lane) : Statement (.pack m t f) :=
  ⟨extract_seven_portWord .., extract_thirty_nine_portWord ..⟩
theorem unpack (b : Byte) : Statement (.unpack b) :=
  ⟨extract_seven_portWord .., extract_thirty_nine_portWord ..⟩
theorem resolveType (d : Direction) (r : BitVec 4) : Statement (.resolveType d r) :=
  ⟨extract_seven_portWord .., extract_thirty_nine_portWord ..⟩
theorem resolveMode (d : Direction) (r : BitVec 2) : Statement (.resolveMode d r) :=
  ⟨extract_seven_portWord .., extract_thirty_nine_portWord ..⟩
theorem resolveFeature (r : BitVec 2) : Statement (.resolveFeature r) :=
  ⟨extract_seven_portWord .., extract_thirty_nine_portWord ..⟩
theorem encode (v : AttributeValue) : Statement (.encode v) :=
  ⟨extract_seven_portWord .., extract_thirty_nine_portWord ..⟩
theorem decode (d : Direction) (b : Byte) : Statement (.decode d b) :=
  ⟨extract_seven_portWord .., extract_thirty_nine_portWord ..⟩

end Sys2Proof.Laws.Unused
end

