-- ==== Sys2Proof/Laws/State.lean ====
section
/-! SUPPORT. One lemma per field per update of State: `drivePayload`, `raiseError`, `respond`, `idle`, `present`,
`withFetchWord`. -/

namespace Sys2Proof.Machine

@[simp] theorem drivePayload_host (p : Payload) (s : State) : (drivePayload p s).host = s.host := rfl
@[simp] theorem drivePayload_reqValid (p : Payload) (s : State) : (drivePayload p s).reqValid = s.reqValid := rfl
@[simp] theorem drivePayload_req (p : Payload) (s : State) : (drivePayload p s).req = s.req := rfl
@[simp] theorem drivePayload_rspValid (p : Payload) (s : State) : (drivePayload p s).rspValid = true := rfl
@[simp] theorem drivePayload_rsp (p : Payload) (s : State) : (drivePayload p s).rsp = payloadWord p := rfl
@[simp] theorem drivePayload_draws (p : Payload) (s : State) : (drivePayload p s).draws = s.draws := rfl

@[simp] theorem raiseError_host (e : ErrorKind) (s : State) : (raiseError e s).host = s.host := rfl
@[simp] theorem raiseError_reqValid (e : ErrorKind) (s : State) : (raiseError e s).reqValid = s.reqValid := rfl
@[simp] theorem raiseError_req (e : ErrorKind) (s : State) : (raiseError e s).req = s.req := rfl
@[simp] theorem raiseError_rspValid (e : ErrorKind) (s : State) : (raiseError e s).rspValid = true := rfl
@[simp] theorem raiseError_rsp (e : ErrorKind) (s : State) :
    (raiseError e s).rsp = errorWord e (Config.freePayload s.draws s.req) := rfl
@[simp] theorem raiseError_draws (e : ErrorKind) (s : State) : (raiseError e s).draws = s.draws + 1 := rfl

@[simp] theorem respond_host (r : Response) (s : State) : (respond r s).host = s.host := by cases r <;> rfl
@[simp] theorem respond_reqValid (r : Response) (s : State) : (respond r s).reqValid = s.reqValid := by cases r <;> rfl
@[simp] theorem respond_req (r : Response) (s : State) : (respond r s).req = s.req := by cases r <;> rfl
@[simp] theorem respond_rspValid (r : Response) (s : State) : (respond r s).rspValid = true := by cases r <;> rfl

@[simp] theorem idle_host (s : State) : (idle s).host = s.host := rfl
@[simp] theorem idle_reqValid (s : State) : (idle s).reqValid = s.reqValid := rfl
@[simp] theorem idle_req (s : State) : (idle s).req = s.req := rfl
@[simp] theorem idle_rspValid (s : State) : (idle s).rspValid = false := rfl
@[simp] theorem idle_rsp (s : State) : (idle s).rsp = Config.freeIdleRsp s.draws s.req := rfl
@[simp] theorem idle_draws (s : State) : (idle s).draws = s.draws + 1 := rfl

@[simp] theorem present_rspValid (s : State) : (present s).rspValid = s.rspValid := by
  unfold present; split <;> rfl
@[simp] theorem present_rsp (s : State) : (present s).rsp = s.rsp := by
  unfold present; split <;> rfl
@[simp] theorem present_draws (s : State) : (present s).draws = s.draws := by
  unfold present; split <;> rfl

/-- The host has nothing left to drive. -/
theorem present_nil {s : State} (h : s.host = []) : present s = { s with reqValid := false } := by
  unfold present; rw [h]

/-- The host drives the next entry of its list. -/
theorem present_cons {s : State} {d : Drive} {rest : List Drive} (h : s.host = d :: rest) :
    present s = { s with host := rest, reqValid := d.valid, req := d.word } := by
  unfold present; rw [h]

@[simp] theorem present_host (s : State) : (present s).host = s.host.tail := by
  unfold present; split <;> simp [*]

@[simp] theorem withFetchWord_host (s : State) (nbits w : Nat) :
    (s.withFetchWord nbits w).host = ⟨true, BitVec.ofNat 40 (w % 2 ^ nbits)⟩ :: s.host := rfl
@[simp] theorem withFetchWord_reqValid (s : State) (nbits w : Nat) : (s.withFetchWord nbits w).reqValid = s.reqValid := rfl
@[simp] theorem withFetchWord_req (s : State) (nbits w : Nat) : (s.withFetchWord nbits w).req = s.req := rfl
@[simp] theorem withFetchWord_rspValid (s : State) (nbits w : Nat) : (s.withFetchWord nbits w).rspValid = s.rspValid := rfl
@[simp] theorem withFetchWord_rsp (s : State) (nbits w : Nat) : (s.withFetchWord nbits w).rsp = s.rsp := rfl
@[simp] theorem withFetchWord_draws (s : State) (nbits w : Nat) : (s.withFetchWord nbits w).draws = s.draws := rfl

end Sys2Proof.Machine
end

