-- ==== Sys2Proof/Laws/Step.lean ====
section
/-! SUPPORT. What the response operation, a meaning and a step can do, each said once. -/

namespace Sys2Proof.Machine

/-- Everything `respond` does: the two response ports and the draw counter, and nothing else; the word is one the answer
admits. -/
theorem respond_spec (r : Response) (s : State) :
    ∃ x n, respond r s = { s with rspValid := true, rsp := x, draws := n } ∧ Admits r x ∧
      (∀ p, r = .ok p → n = s.draws) := by
  cases r with
  | ok p => exact ⟨_, s.draws, rfl, rfl, fun _ _ => rfl⟩
  | error e => exact ⟨_, s.draws + 1, rfl, rspStatus_errorWord .., fun _ h => nomatch h⟩

theorem respond_admits (r : Response) (s : State) : Admits r (respond r s).rsp := by
  obtain ⟨x, n, h, ha, -⟩ := respond_spec r s
  rw [h]
  exact ha

theorem respond_ok (p : Payload) (s : State) :
    respond (.ok p) s = { s with rspValid := true, rsp := payloadWord p } := rfl

theorem respond_error (e : ErrorKind) (s : State) : ∃ x n,
    respond (.error e) s = { s with rspValid := true, rsp := x, draws := n } ∧ x.extractLsb' 0 2 = errorCode e :=
  ⟨_, _, rfl, rspStatus_errorWord ..⟩

/-- Every meaning drives the response port with its instruction's answer. -/
theorem exec_eq_respond (i : Instr) (s : State) : exec i s = .next (respond (answerOf i) s) := by
  cases i <;> rfl

/-- The block serves any word on its request port (R81). -/
theorem serve_eq_respond (s : State) : serve s = .next (respond (answer s.req) s) := by
  cases h : decodeReq s.req with
  | ok i => simp [serve, answer, h, exec_eq_respond]
  | error e => simp [serve, answer, h, respond]

/-- What a step does: it answers the presented word, or nothing is presented. -/
theorem step_cases (s : State) :
    ((present s).reqValid = true ∧ step s = .next (respond (answer (present s).req) (present s))) ∨
    ((present s).reqValid = false ∧ step s = .next (idle (present s))) := by
  unfold step
  cases h : (present s).reqValid
  · exact .inr ⟨rfl, rfl⟩
  · exact .inl ⟨rfl, serve_eq_respond _⟩

/-- A step in which the host presents `w`. -/
theorem step_request {s : State} {w : ReqWord} {rest : List Drive} (h : s.host = ⟨true, w⟩ :: rest) :
    step s = .next (respond (answer w) { s with host := rest, reqValid := true, req := w }) := by
  have hp := present_cons h
  rcases step_cases s with ⟨_, hs⟩ | ⟨hv, _⟩
  · rw [hs, hp]
  · simp [hp] at hv

/-- A step in which the host drives `req_valid` = 0. -/
theorem step_no_request {s : State} {w : ReqWord} {rest : List Drive} (h : s.host = ⟨false, w⟩ :: rest) :
    step s = .next (idle { s with host := rest, reqValid := false, req := w }) := by
  have hp := present_cons h
  rcases step_cases s with ⟨hv, _⟩ | ⟨_, hs⟩
  · simp [hp] at hv
  · rw [hs, hp]

/-- A step after the host's last drive. -/
theorem step_host_done {s : State} (h : s.host = []) : step s = .next (idle { s with reqValid := false }) := by
  have hp := present_nil h
  rcases step_cases s with ⟨hv, _⟩ | ⟨_, hs⟩
  · simp [hp] at hv
  · rw [hs, hp]

end Sys2Proof.Machine
end

