-- ==== Sys2Proof/Tests/Slice0.lean ====
section
/-! SUPPORT. The model's own tests. Every expected word is of spec/95_test_vectors.md (its table is named at the test) or of a rule
named there; none is the model's own answer. A witness theorem shows that the hypotheses of the statement it names can be met. -/

open Sys2Proof Sys2Proof.Machine

/-- The state after power-up in which the host is about to present `w`. -/
def presenting (w : ReqWord) : State := { State.reset with host := [⟨true, w⟩] }

/-- The response of the one step that serves the table word `w`, if it is valid. -/
def served (w : Nat) : Option RspWord :=
  match step (State.reset.withFetchWord 40 w) with
  | .next t => if t.rspValid then some t.rsp else none
  | _ => none

/-! ### Decoding: words written out from R61 and R62, bits 39..0 -/

theorem test_decode_pack : decodeReq 0b00000000_00000001_00000000_00000011_00000000#40 = .ok (.pack 3 0 1) := by decide
theorem test_decode_unpack : decodeReq 0b00000000_00000000_00000000_10000110_00000001#40 = .ok (.unpack 0x86) := by decide
theorem test_decode_resolveType :
    decodeReq 0b00000000_00000000_00010001_00000000_00001010#40 = .ok (.resolveType .centerToEntity 1) := by decide
theorem test_decode_resolveMode :
    decodeReq 0b00000000_00000000_00000000_00000111_00000011#40 = .ok (.resolveMode .entityToCenter 3) := by decide
theorem test_decode_resolveFeature :
    decodeReq 0b00000000_11111110_00000000_00000000_00001100#40 = .ok (.resolveFeature 2) := by decide
theorem test_decode_encode : decodeReq 0b01001100_00000000_00000000_00000010_01101101#40 =
    .ok (.encode ⟨.centerToEntity, ⟨2, none⟩, ⟨0, some .smeDeliveryReceipt⟩, ⟨0, some .replyPath⟩⟩) := by decide
theorem test_decode_decode :
    decodeReq 0b00000000_00000000_00000000_10000110_00001110#40 = .ok (.decode .centerToEntity 0x86) := by decide
theorem test_decode_illegal : decodeReq 0x000000430F = .error .illegalOp := by decide
theorem test_decode_table_word :
    decodeTableWord 40 0x0000008601 = some (.unpack 0x86) ∧ decodeTableWord 8 4 = some (.resolveFeature 0)
    ∧ decodeTableWord 40 7 = none ∧ decodeTableWord 48 1 = none := by decide

/-! ### One step per vector -/

/-- V1: the largest operands that fit, with every ignored bit set. -/
theorem test_pack_largest : served 0xFF030F03F8 = some 0x000000FF00 := by decide

/-- V1, S5: the smallest mode that does not fit. -/
theorem test_pack_mode_four : ∃ t, step (State.reset.withFetchWord 40 0x0000000400) = .next t ∧ rspStatus t.rsp = 1 :=
  ⟨_, rfl, rspStatus_errorWord .outOfRange _⟩

/-- V2: the type mask alone; mask before shift. -/
theorem test_unpack_type_only : served 0x0000003C01 = some 0x00000F0000 := by decide
theorem test_unpack_all_fields : served 0x000000A501 = some 0x0002090100 := by decide

/-- V3: raw 1 resolves center to entity and not entity to center (S4), with an ignored lane bit set. -/
theorem test_resolveType_one_c2e : served 0x000011000A = some 0x0C00000020 := by decide
theorem test_resolveType_one_e2c : served 0x0000010002 = some 0x0000000000 := by decide

/-- V4. -/
theorem test_resolveMode_e2c : served 0x0000000303 = some 0x0300000010 := by decide
theorem test_resolveMode_c2e : served 0x000000030B = some 0x0000000000 := by decide

/-- V5. -/
theorem test_resolveFeature : served 0x000300000C = some 0x6000000040 := by decide

/-- V7: the lane beside a symbol is ignored. -/
theorem test_encode_symbol_wins : served 0x030303FF15 = some 0x000000CF00 := by decide

/-- V7: both causes, and InvalidForDirection wins. -/
theorem test_encode_both_causes : ∃ t, step (State.reset.withFetchWord 40 0x1C00000425) = .next t ∧ rspStatus t.rsp = 2 :=
  ⟨_, rfl, rspStatus_errorWord .invalidForDirection _⟩

/-- V6, S7: the byte of the source's second scenario, under each direction. -/
theorem test_decode_c2e : served 0x000000860E = some 0x4C02010268 := by decide
theorem test_decode_e2c : served 0x0000008606 = some 0x4202010250 := by decide

/-- V8. -/
theorem test_illegal_op : ∃ t, step (State.reset.withFetchWord 40 0xFFFFFFFFFF) = .next t ∧ rspStatus t.rsp = 3 :=
  ⟨_, rfl, rspStatus_errorWord .illegalOp _⟩

/-! ### The textual form (R77) -/

theorem test_assemble_pack : assembleText "pack(4, 0, 0)" = some 0x0000000400 := by decide
theorem test_assemble_resolve : assembleText "resolve_type(ENTITY_TO_CENTER, 1)" = some 0x0000010002 := by decide

/-- R77's five examples of a result, from the response words of part 95. -/
theorem test_result_text : resultText 0 0x0000004300 = "0x43" ∧ resultText 1 0x0001000300 = "(3, 0, 1)" ∧
    resultText 2 0x0C00000020 = "Some(SME_DELIVERY_RECEIPT)" ∧ resultText 2 0x0000000000 = "None" ∧
    resultText 0 0x0000000001 = "OutOfRange" := by decide

/-! ### WellFormed: an ill-formed term for each check, and a well-formed one beside them -/

/-- The value DECODE gives of byte 0x43 entity to center (S6); `setMode` and the like break one check each. -/
def goodValue : AttributeValue := ⟨.entityToCenter, ⟨3, some .storeAndForward⟩, ⟨0, some .default⟩, ⟨1, some .udhi⟩⟩

theorem smoke_value_accepted : goodValue.wellFormed = true := by decide
theorem smoke_value_mode_range : AttributeValue.wellFormed { goodValue with mode := ⟨7, some .storeAndForward⟩ } = false := by decide
theorem smoke_value_type_range : AttributeValue.wellFormed { goodValue with type := ⟨16, some .default⟩ } = false := by decide
theorem smoke_value_feature_range : AttributeValue.wellFormed { goodValue with feature := ⟨5, some .udhi⟩ } = false := by decide
theorem smoke_value_mode_symbol : AttributeValue.wellFormed { goodValue with mode := ⟨3, none⟩ } = false := by decide
theorem smoke_value_type_symbol :
    AttributeValue.wellFormed { goodValue with type := ⟨2, some .smeDeliveryAck⟩ } = false := by decide
theorem smoke_value_feature_symbol : AttributeValue.wellFormed { goodValue with feature := ⟨1, none⟩ } = false := by decide

theorem smoke_instr_accepted : (Instr.pack 3 15 3).wellFormed = true ∧ (Instr.encode goodValue).wellFormed = true := by decide
theorem smoke_pack_mode : (Instr.pack 4 15 3).wellFormed = false := by decide
theorem smoke_pack_type : (Instr.pack 3 16 3).wellFormed = false := by decide
theorem smoke_pack_feature : (Instr.pack 3 15 4).wellFormed = false := by decide
theorem smoke_encode_mode_foreign :
    (Instr.encode ⟨.centerToEntity, ⟨0, some .default⟩, ⟨0, none⟩, ⟨0, none⟩⟩).wellFormed = false := by decide
theorem smoke_encode_type_foreign :
    (Instr.encode ⟨.centerToEntity, ⟨0, none⟩, ⟨0, some .esmeDeliveryAck⟩, ⟨0, none⟩⟩).wellFormed = false := by decide
theorem smoke_encode_mode_range : (Instr.encode { goodValue with mode := ⟨4, none⟩ }).wellFormed = false := by decide
theorem smoke_encode_type_range : (Instr.encode { goodValue with type := ⟨16, none⟩ }).wellFormed = false := by decide
theorem smoke_encode_feature_range : (Instr.encode { goodValue with feature := ⟨4, none⟩ }).wellFormed = false := by decide

theorem smoke_call_accepted : (AsmCall.pack 255 255 255).wellFormed = true ∧
    (AsmCall.encode .entityToCenter (some (.num 255)) (some (.sym .default)) none).wellFormed = true := by decide
theorem smoke_call_pack : (AsmCall.pack 256 0 0).wellFormed = false ∧ (AsmCall.pack 0 256 0).wellFormed = false ∧
    (AsmCall.pack 0 0 256).wellFormed = false := by decide
theorem smoke_call_byte : (AsmCall.unpack 256).wellFormed = false ∧
    (AsmCall.decode .entityToCenter 256).wellFormed = false := by decide
theorem smoke_call_resolve : (AsmCall.resolveType .entityToCenter 16).wellFormed = false ∧
    (AsmCall.resolveMode .entityToCenter 4).wellFormed = false ∧ (AsmCall.resolveFeature 4).wellFormed = false := by decide
theorem smoke_call_encode : (AsmCall.encode .entityToCenter (some (.num 256)) none none).wellFormed = false ∧
    (AsmCall.encode .entityToCenter none (some (.num 256)) none).wellFormed = false ∧
    (AsmCall.encode .entityToCenter none none (some (.num 256))).wellFormed = false := by decide

/-! ### Witnesses: the hypotheses of each statement can be met -/

theorem witness_TablesAgreeWithCodes :
    typeMember .entityToCenter .default = true ∧ typeMember .centerToEntity .intermediate = true ∧
    typeSymOf .centerToEntity 8 = some .intermediate ∧ modeMember .entityToCenter .forward = true ∧
    modeSymOf .entityToCenter 3 = some .storeAndForward ∧
    (typeMember .entityToCenter .esmeDeliveryAck = true ∧ typeCode .esmeDeliveryAck = typeCode .esmeDeliveryAck) := by decide

theorem witness_OpFieldSelectsOperation :
    decodeReq 0x0000004306 = .ok (.decode .entityToCenter 0x43) ∧ decodeReq 0x0000000007 = .error .illegalOp := by decide

theorem witness_EncodeOfDecode : decodeReq 0x2300000075 = .ok (.encode ⟨.entityToCenter, ⟨0, some .storeAndForward⟩,
    ⟨0, some .default⟩, ⟨0, some .udhi⟩⟩) ∧ (0x2300000075 : ReqWord) &&& readMask 0x2300000075 = 0x2300000075 := by decide

/-- Two different words that agree on the bits read: V1's `pack(3, 15, 3)` without and with its ignored bits. -/
theorem witness_IgnoredBitsHaveNoEffect : (0xFF030F03F8 : ReqWord) ≠ 0x00030F0300 ∧
    (0xFF030F03F8 : ReqWord) &&& readMask 0x00030F0300 = 0x00030F0300 &&& readMask 0x00030F0300 := by decide

/-- Every form of call at the largest numbers it admits, and `encode` with each kind of member. -/
theorem witness_AssembledCallDecodes : (AsmCall.pack 255 255 255).wellFormed = true ∧ (AsmCall.unpack 255).wellFormed = true ∧
    (AsmCall.resolveType .entityToCenter 15).wellFormed = true ∧ (AsmCall.resolveMode .centerToEntity 3).wellFormed = true ∧
    (AsmCall.resolveFeature 3).wellFormed = true ∧ (AsmCall.decode .centerToEntity 255).wellFormed = true ∧
    (AsmCall.encode .centerToEntity (some (.num 255)) (some (.sym .intermediate)) none).wellFormed = true ∧
    (AsmCall.encode .entityToCenter (some (.sym .storeAndForward)) none (some (.sym .udhiAndReplyPath))).wellFormed = true := by
  decide

/-- A failed response of each status. -/
theorem witness_ResultTexts : (0xFFFFFFFFFD : RspWord).extractLsb' 0 2 = 1 ∧ (0x0000000002 : RspWord).extractLsb' 0 2 = 2 ∧
    (0xFFFFFFFFFF : RspWord).extractLsb' 0 2 = 3 := by decide

theorem witness_StepRunsDecodedRequest : (presenting 0x0000008601).host = ⟨true, 0x0000008601⟩ :: [] ∧
    decodeReq 0x0000008601 = .ok (.unpack 0x86) := by decide

theorem witness_IllegalOpAnswersStatusThree : (presenting 0x0000000007).host = ⟨true, 0x0000000007⟩ :: [] ∧
    (0x0000000007 : ReqWord).extractLsb' 0 3 = 7 := by decide

theorem witness_NoRequestNoResponse :
    { State.reset with host := [⟨false, 0x0000000007⟩] : State }.host = ⟨false, 0x0000000007⟩ :: [] ∧
    State.reset.host = [] := by decide

theorem witness_ResponseDependsOnRequestAlone : (presenting 0x0000000007).host = ⟨true, 0x0000000007⟩ :: [] ∧
    ({ presenting 0x0000000007 with rspValid := true, draws := 5 } : State).host = ⟨true, 0x0000000007⟩ :: [] := by decide

/-- The success clause of the frame: PACK of zeros answers status 0. -/
theorem witness_OperationsChangeOnlyResponse :
    ∃ t, exec (.pack 0 0 0) State.reset = .next t ∧ rspStatus t.rsp = 0 := ⟨_, rfl, rspStatus_payloadWord _⟩

/-- Each clause at its boundary: 3, 15, 3 fit; 4, 16 and 4 do not. -/
theorem witness_PackResult : (0x00030F0300 : ReqWord).extractLsb' 0 3 = 0 ∧
    ((3 : Lane).toNat < 4 ∧ (15 : Lane).toNat < 16 ∧ (3 : Lane).toNat < 4) ∧
    4 ≤ (4 : Lane).toNat ∧ 16 ≤ (16 : Lane).toNat := by decide

theorem witness_PackNeverTruncates : ∃ u, exec (.pack 3 15 3) State.reset = .next u ∧ rspStatus u.rsp = 0 :=
  ⟨_, rfl, rspStatus_payloadWord _⟩

theorem witness_UnpackResult : (0x000000FF01 : ReqWord).extractLsb' 0 3 = 1 := by decide

/-- UNPACK of 0xFF, and a second state that presents its response (V2: 0x00030F0300). -/
theorem witness_PackAfterUnpackGivesByte : (presenting 0x000000FF01).host = ⟨true, 0x000000FF01⟩ :: [] ∧
    (0x000000FF01 : ReqWord).extractLsb' 0 3 = 1 ∧ served 0x000000FF01 = some 0x00030F0300 ∧
    (presenting 0x00030F0300).host = ⟨true, 0x00030F0300⟩ :: [] := by decide

/-- PACK of (3, 15, 3), and a second state that presents its response with `op` set to 1. -/
theorem witness_UnpackAfterPackGivesTriple : (presenting 0x00030F0300).host = ⟨true, 0x00030F0300⟩ :: [] ∧
    (0x00030F0300 : ReqWord).extractLsb' 0 3 = 0 ∧ ((0x00030F0300 : ReqWord).extractLsb' 8 8).toNat < 4 ∧
    ((0x00030F0300 : ReqWord).extractLsb' 16 8).toNat < 16 ∧ ((0x00030F0300 : ReqWord).extractLsb' 24 8).toNat < 4 ∧
    served 0x00030F0300 = some 0x000000FF00 ∧
    (presenting (0x000000FF00 ||| 1)).host = ⟨true, 0x000000FF00 ||| 1⟩ :: [] := by decide

theorem witness_ResolveResults : (0x000001000A : ReqWord).extractLsb' 0 3 = 2 ∧ (0x0000000303 : ReqWord).extractLsb' 0 3 = 3 ∧
    (0x0003000004 : ReqWord).extractLsb' 0 3 = 4 := by decide

theorem witness_DirectionIsolation : (2 : BitVec 4) = 2 ∨ (2 : BitVec 4) = 4 := by decide

/-- A foreign symbol; no foreign symbol and a raw number at the first value that does not fit; and the accepted value. -/
theorem witness_EncodeResult : (0x2300000075 : ReqWord).extractLsb' 0 3 = 5 ∧
    foreignValue ⟨.centerToEntity, ⟨0, none⟩, ⟨0, some .esmeDeliveryAck⟩, ⟨0, none⟩⟩ = true ∧
    (foreignValue ⟨.entityToCenter, ⟨0, none⟩, ⟨16, none⟩, ⟨0, none⟩⟩ = false ∧ 16 ≤ (16 : Lane).toNat) ∧
    (foreignValue goodValue = false ∧ (modeRaw goodValue.mode).toNat < 4 ∧ (typeRaw goodValue.type).toNat < 16 ∧
      (featureRaw goodValue.feature).toNat < 4) := by decide

/-- Two values that differ in the lane beside a symbol alone. -/
theorem witness_EncodeIgnoresLaneBesideSymbol :
    let v' : AttributeValue := { goodValue with mode := ⟨0xFF, some .storeAndForward⟩ }
    v' ≠ goodValue ∧ v'.dir = goodValue.dir ∧ v'.mode.sym = goodValue.mode.sym ∧ v'.type.sym = goodValue.type.sym ∧
    v'.feature.sym = goodValue.feature.sym ∧ (goodValue.mode.sym = none → v'.mode.raw = goodValue.mode.raw) ∧
    (goodValue.type.sym = none → v'.type.raw = goodValue.type.raw) ∧
    (goodValue.feature.sym = none → v'.feature.raw = goodValue.feature.raw) := by decide

/-- S8's rejected value, both sides of the equivalence true. -/
theorem witness_InvalidForDirectionCauses :
    ∃ t, exec (.encode ⟨.centerToEntity, ⟨0, none⟩, ⟨0, some .esmeDeliveryAck⟩, ⟨0, none⟩⟩) State.reset = .next t ∧
      rspStatus t.rsp = 2 := ⟨_, rfl, rspStatus_errorWord .invalidForDirection _⟩

/-- V7's raw feature 4, both sides of the equivalence true. -/
theorem witness_OutOfRangeCauses :
    ∃ t, exec (.encode ⟨.entityToCenter, ⟨0, none⟩, ⟨0, none⟩, ⟨4, none⟩⟩) State.reset = .next t ∧
      rspStatus t.rsp = 1 := ⟨_, rfl, rspStatus_errorWord .outOfRange _⟩

theorem witness_DecodeResult : (0x000000860E : ReqWord).extractLsb' 0 3 = 6 := by decide

/-- P2's first two requests: DECODE of 0x86, and its response with `op` set to 5. -/
theorem witness_EncodeAfterDecodeGivesByte : (presenting 0x000000860E).host = ⟨true, 0x000000860E⟩ :: [] ∧
    (0x000000860E : ReqWord).extractLsb' 0 3 = 6 ∧ served 0x000000860E = some 0x4C02010268 ∧
    (presenting (0x4C02010268 ||| 5)).host = ⟨true, 0x4C02010268 ||| 5⟩ :: [] := by decide

/-- S6's value encodes with status 0. -/
theorem witness_DecodeAfterEncodeGivesCanonicalValue :
    ∃ t, exec (.encode ⟨.entityToCenter, ⟨3, some .storeAndForward⟩, ⟨0, some .default⟩, ⟨1, some .udhi⟩⟩) State.reset = .next t ∧
      rspStatus t.rsp = 0 := ⟨_, rfl, rspStatus_payloadWord _⟩

theorem witness_ReadPathNeverFails : (presenting 0x000000860E).host = ⟨true, 0x000000860E⟩ :: [] ∧
    ((0x000000FF01 : ReqWord).extractLsb' 0 3 = 1 ∧ (0x000001000A : ReqWord).extractLsb' 0 3 = 2 ∧
      (0x0000000303 : ReqWord).extractLsb' 0 3 = 3 ∧ (0x0003000004 : ReqWord).extractLsb' 0 3 = 4 ∧
      (0x000000860E : ReqWord).extractLsb' 0 3 = 6) := by decide

/-- A valid response with status 0 in which two `_sv` bits are 0 (V6: `decode(C2E, 0xFF)`), and one in which `feat_sv` is. -/
theorem witness_SuccessfulResponseLayout : (presenting 0x000000FF0E).host = ⟨true, 0x000000FF0E⟩ :: [] ∧ served 0x000000FF0E = some 0x60030F0348 ∧
    rspStatus 0x60030F0348 = 0 ∧ rspModeSv 0x60030F0348 = 0 ∧ rspTypeSv 0x60030F0348 = 0 ∧
    served 0x0000000001 = some 0 ∧ rspStatus 0 = 0 ∧ rspFeatSv 0 = 0 := by decide

/-- A request is presented in a settled state. -/
theorem witness_StepSettlesPorts : ∃ t, step (presenting 0x000000FF01) = .next t ∧ t.reqValid = true := ⟨_, rfl, rfl⟩
end

section
/-! The family of spec/10_state.md: the frame of the operations, the constant tables, the step as `exec`, and the direction. -/

namespace Sys2Proof.Machine

/-! ### The answer, the word on the port, and `exec` -/

/-- A word with status OK stands on the port only for a success (R71). -/
theorem exists_payload_of_admits {r : Response} {x : RspWord} (ha : Admits r x) (h0 : rspStatus x = okCode) :
    ∃ p, r = .ok p ∧ x = payloadWord p := by
  cases r with
  | ok p => exact ⟨p, rfl, ha⟩
  | error e => exact absurd (ha.symm.trans h0) (errorCode_ne_ok e)

/-- An operation that succeeds puts its payload on the response port and changes nothing else. -/
theorem exec_of_answerOf_ok {i : Instr} {p : Payload} (h : answerOf i = .ok p) (s : State) :
    exec i s = .next { s with rspValid := true, rsp := payloadWord p } := by
  rw [exec_eq_respond, h, respond_ok]

/-- The answer to a word that decodes is the decoded operation's. -/
theorem answer_of_decodeReq_ok {w : ReqWord} {i : Instr} (h : decodeReq w = .ok i) : answer w = answerOf i := by
  simp [answer, h]

/-- Settles O18: every meaning is `respond`, whose frame is `respond_spec`, and an error's status is never OK. -/
theorem operationsChangeOnlyResponse : Obligations.OperationsChangeOnlyResponse := by
  intro i s
  obtain ⟨x, n, hr, ha, hn⟩ := respond_spec (answerOf i) s
  refine ⟨x, n, by rw [exec_eq_respond, hr], fun h0 => ?_⟩
  obtain ⟨p, hp, -⟩ := exists_payload_of_admits ha h0
  exact hn p hp

/-- Settles O11: `exec` and the step both respond with the operation's answer. -/
theorem stepRunsDecodedRequest : Obligations.StepRunsDecodedRequest := by
  intro s w rest i hs hd
  rw [step_request hs, answer_of_decodeReq_ok hd, exec_eq_respond]

/-! ### The constant tables -/

/-- The center-to-entity mode table is empty (R28). -/
@[simp] theorem modeSymOf_centerToEntity (raw : BitVec 2) : modeSymOf .centerToEntity raw = none := by
  revert raw; decide

@[simp] theorem modeMember_entityToCenter (s : ModeSymbol) : modeMember .entityToCenter s = true := rfl
@[simp] theorem modeMember_centerToEntity (s : ModeSymbol) : modeMember .centerToEntity s = false := rfl

/-- Settles O2: the tables have 4 and 16 entries, so each is compared at every raw number. -/
theorem symbolTables : Obligations.SymbolTables := by
  refine ⟨?modeE2C, modeSymOf_centerToEntity, fun s => ⟨modeMember_entityToCenter s, modeMember_centerToEntity s⟩,
    ?typeE2C, ?typeC2E, ?feature⟩
  case modeE2C => decide
  case typeE2C => decide
  case typeC2E => decide
  case feature => decide

/-! ### The direction -/

/-- ENCODE of raw numbers is PACK of them under either direction: no symbol is supplied that could be foreign (R115). -/
theorem encodeResponse_raw (d : Direction) (a b c : Lane) :
    encodeResponse ⟨d, ⟨a, none⟩, ⟨b, none⟩, ⟨c, none⟩⟩ = packResponse a b c := rfl

/-- Settles O40: ENCODE of raw numbers is PACK, which takes no direction, and DECODE's numbers and feature are read off its payload. -/
theorem directionLeavesRawNumbersAlone : Obligations.DirectionLeavesRawNumbersAlone := by
  refine ⟨fun s a b c => ?encode, fun s b => ⟨_, _, exec_of_answerOf_ok rfl s, exec_of_answerOf_ok rfl s, ?decode⟩⟩
  case encode => simp only [exec_eq_respond, answerOf, encodeResponse_raw]
  case decode => simp only [rspA_payloadWord, rspB_payloadWord, rspC_payloadWord, rspFeatSym_payloadWord, and_self]

end Sys2Proof.Machine
end

section
/-! The family of spec/20_memory.md: the block keeps nothing from one request to the next, so the request word alone fixes the
response. -/

namespace Sys2Proof.Machine

/-- An answer fixes the status on the port, whatever the free bits of a failure hold (R73). -/
theorem rspStatus_eq_of_admits {r : Response} {x y : RspWord} (hx : Admits r x) (hy : Admits r y) :
    rspStatus x = rspStatus y := by
  cases r with
  | ok p => exact congrArg rspStatus (hx.trans hy.symm)
  | error e => exact hx.trans hy.symm

/-- An answer fixes the whole word of a success (R70). -/
theorem eq_of_admits_of_rspStatus_ok {r : Response} {x y : RspWord} (hx : Admits r x) (hy : Admits r y)
    (h0 : rspStatus x = okCode) : x = y := by
  obtain ⟨p, rfl, hp⟩ := exists_payload_of_admits hx h0
  exact hp.trans hy.symm

/-- Settles O16: both steps respond with `answer w`, which reads no state, and one answer admits only one status and one
success. -/
theorem responseDependsOnRequestAlone : Obligations.ResponseDependsOnRequestAlone := by
  intro s s' w rest rest' hs hs'
  have hx := respond_admits (answer w) { s with host := rest, reqValid := true, req := w }
  have hy := respond_admits (answer w) { s' with host := rest', reqValid := true, req := w }
  exact ⟨_, _, step_request hs, step_request hs', rspStatus_eq_of_admits hx hy, eq_of_admits_of_rspStatus_ok hx hy⟩

end Sys2Proof.Machine
end

section
/-! The family of spec/30_encoding.md, the words: masks of a port word, and the decoder and the encoder as inverses of each
other. -/

namespace Sys2Proof

/-! ### The operation code (R64, R76) -/

/-- The encoder writes the operation code into bits 2:0. -/
@[simp] theorem reqOp_encodeReq (i : Instr) : reqOp (encodeReq i) = opCode i := by
  cases i with
  | pack => exact Laws.OpField.pack ..
  | unpack => exact Laws.OpField.unpack ..
  | resolveType => exact Laws.OpField.resolveType ..
  | resolveMode => exact Laws.OpField.resolveMode ..
  | resolveFeature => exact Laws.OpField.resolveFeature ..
  | encode => exact Laws.OpField.encode ..
  | decode => exact Laws.OpField.decode ..

/-- No operation has code 7. -/
theorem opCode_ne_seven (i : Instr) : opCode i ≠ 7 := by
  cases i <;> simp [opCode]

/-- Everything the decoder can answer: an operation of the word's code, or IllegalOp at code 7. -/
theorem decodeReq_cases (w : ReqWord) :
    (∃ i, decodeReq w = .ok i ∧ reqOp w = opCode i) ∨ (decodeReq w = .error .illegalOp ∧ reqOp w = 7) := by
  rcases reqOp_cases w with h | h | h | h | h | h | h | h
  · exact .inl ⟨_, decodeReq_pack h, h⟩
  · exact .inl ⟨_, decodeReq_unpack h, h⟩
  · exact .inl ⟨_, decodeReq_resolveType h, h⟩
  · exact .inl ⟨_, decodeReq_resolveMode h, h⟩
  · exact .inl ⟨_, decodeReq_resolveFeature h, h⟩
  · exact .inl ⟨_, decodeReq_encode h, h⟩
  · exact .inl ⟨_, decodeReq_decode h, h⟩
  · exact .inr ⟨decodeReq_illegal h, h⟩

/-- A word that decodes carries its operation's code. -/
theorem reqOp_of_decodeReq_ok {w : ReqWord} {i : Instr} (hd : decodeReq w = .ok i) : reqOp w = opCode i := by
  rcases decodeReq_cases w with ⟨j, hj, hop⟩ | ⟨he, -⟩
  · cases hd.symm.trans hj
    exact hop
  · cases hd.symm.trans he

/-- Settles O5: `decodeReq_cases` names the two outcomes, and no operation's code is 7. -/
theorem opFieldSelectsOperation : Obligations.OpFieldSelectsOperation := by
  refine ⟨fun w i hd => reqOp_of_decodeReq_ok hd, fun w => ⟨?defined, ?decodes⟩, fun w e he => ?illegal⟩
  case defined =>
    rintro ⟨i, hd⟩ h7
    exact opCode_ne_seven i ((reqOp_of_decodeReq_ok hd).symm.trans h7)
  case decodes =>
    intro hne
    rcases decodeReq_cases w with ⟨i, hd, -⟩ | ⟨-, h7⟩
    · exact ⟨i, hd⟩
    · exact absurd h7 hne
  case illegal =>
    rcases decodeReq_cases w with ⟨i, hd, -⟩ | ⟨hi, h7⟩
    · cases he.symm.trans hd
    · cases he.symm.trans hi
      exact ⟨h7, rfl⟩

/-! ### Decoding an encoded instruction -/

/-- Settles O6: the word carries the operation's code, so the decoder takes the operation's own format, and each field it
reads is the one the encoder wrote. -/
theorem decodeOfEncode : Obligations.DecodeOfEncode := by
  intro i
  have hop := reqOp_encodeReq i
  cases i with
  | pack m t f => rw [decodeReq_pack hop]; simp [encodeReq]
  | unpack b => rw [decodeReq_unpack hop]; simp [encodeReq]
  | resolveType d r => rw [decodeReq_resolveType hop]; simp [encodeReq]
  | resolveMode d r => rw [decodeReq_resolveMode hop]; simp [encodeReq]
  | resolveFeature r => rw [decodeReq_resolveFeature hop]; simp [encodeReq]
  | encode v => rw [decodeReq_encode hop]; simp [encodeReq, reqValue]
  | decode d b => rw [decodeReq_decode hop]; simp [encodeReq]

/-! ### Fields under a mask -/

/-- Two words that agree under a mask agree on a field that the mask covers. -/
theorem extract_eq_of_mask {w w' m : BitVec 40} (h : w' &&& m = w &&& m) (lo n : Nat)
    (hm : m.extractLsb' lo n = BitVec.allOnes n) : w'.extractLsb' lo n = w.extractLsb' lo n := by
  simpa [BitVec.extractLsb'_and, hm] using congrArg (BitVec.extractLsb' lo n) h

/-- A word that is 0 outside a mask is 0 on a field outside the mask. -/
theorem extract_eq_zero_of_mask {w m : BitVec 40} (h : w &&& m = w) (lo n : Nat)
    (hm : m.extractLsb' lo n = 0) : w.extractLsb' lo n = 0 := by
  simpa [BitVec.extractLsb'_and, hm] using (congrArg (BitVec.extractLsb' lo n) h).symm

/-- ENCODE's mask on the mode lane and the mode symbol id (R69); so for the other two members. -/
theorem readMask_encode_mode {w : ReqWord} (h : reqOp w = 5) :
    (readMask w).extractLsb' 8 8 = (if reqModeSv w = 1#1 then 0 else BitVec.allOnes 8) ∧
    (readMask w).extractLsb' 32 2 = (if reqModeSv w = 1#1 then BitVec.allOnes 2 else 0) := by
  rw [readMask_encode h]
  split_ifs <;> decide

theorem readMask_encode_type {w : ReqWord} (h : reqOp w = 5) :
    (readMask w).extractLsb' 16 8 = (if reqTypeSv w = 1#1 then 0 else BitVec.allOnes 8) ∧
    (readMask w).extractLsb' 34 3 = (if reqTypeSv w = 1#1 then BitVec.allOnes 3 else 0) := by
  rw [readMask_encode h]
  split_ifs <;> decide

theorem readMask_encode_feature {w : ReqWord} (h : reqOp w = 5) :
    (readMask w).extractLsb' 24 8 = (if reqFeatSv w = 1#1 then 0 else BitVec.allOnes 8) ∧
    (readMask w).extractLsb' 37 2 = (if reqFeatSv w = 1#1 then BitVec.allOnes 2 else 0) := by
  rw [readMask_encode h]
  split_ifs <;> decide

/-- ENCODE reads the operation code, the direction and the three `_sv` bits. -/
theorem readMask_encode_low {w : ReqWord} (h : reqOp w = 5) :
    (readMask w).extractLsb' 0 3 = BitVec.allOnes 3 ∧ (readMask w).extractLsb' 3 1 = BitVec.allOnes 1 ∧
    (readMask w).extractLsb' 4 1 = BitVec.allOnes 1 ∧ (readMask w).extractLsb' 5 1 = BitVec.allOnes 1 ∧
    (readMask w).extractLsb' 6 1 = BitVec.allOnes 1 := by
  rw [readMask_encode h]
  split_ifs <;> decide

/-! ### Bits that a format does not read (R63, R69) -/

/-- ENCODE's answer rests on the direction, the symbols, and the lanes that stand without a symbol (R69, R114). -/
theorem encodeResponse_eq_of_read {v v' : AttributeValue} (hd : v'.dir = v.dir)
    (hm : v'.mode.sym = v.mode.sym) (ht : v'.type.sym = v.type.sym) (hf : v'.feature.sym = v.feature.sym)
    (hmr : v.mode.sym = none → v'.mode.raw = v.mode.raw) (htr : v.type.sym = none → v'.type.raw = v.type.raw)
    (hfr : v.feature.sym = none → v'.feature.raw = v.feature.raw) :
    Machine.encodeResponse v' = Machine.encodeResponse v := by
  have hmode : Machine.modeRaw v'.mode = Machine.modeRaw v.mode := by
    cases h : v.mode.sym <;> simp_all [Machine.modeRaw]
  have htype : Machine.typeRaw v'.type = Machine.typeRaw v.type := by
    cases h : v.type.sym <;> simp_all [Machine.typeRaw]
  have hfeature : Machine.featureRaw v'.feature = Machine.featureRaw v.feature := by
    cases h : v.feature.sym <;> simp_all [Machine.featureRaw]
  have hforeign : Machine.foreignValue v' = Machine.foreignValue v := by
    simp only [Machine.foreignValue, hd, hm, ht]
  simp only [Machine.encodeResponse, hforeign, hmode, htype, hfeature]

section
variable {S : Type} {n : Nat} (ofId : BitVec n → S)

/-- The id field matters only beside an `_sv` bit that is 1. -/
theorem symOfBits_eq_of_read {sv : BitVec 1} {id id' : BitVec n} (h : sv = 1#1 → id' = id) :
    symOfBits ofId sv id' = symOfBits ofId sv id := by
  unfold symOfBits
  split
  case isTrue hsv => rw [h hsv]
  case isFalse => rfl

theorem symOfBits_eq_none {sv : BitVec 1} {id : BitVec n} : symOfBits ofId sv id = none ↔ sv ≠ 1#1 := by
  simp [symOfBits]

end

/-- Two ENCODE words that agree on what the first one reads call for the same answer. -/
theorem encodeResponse_reqValue_eq_of_mask {w w' : ReqWord} (h : reqOp w = 5)
    (hw : w' &&& readMask w = w &&& readMask w) :
    Machine.encodeResponse (reqValue w') = Machine.encodeResponse (reqValue w) := by
  have field := extract_eq_of_mask hw
  obtain ⟨-, hmd, hmm, hmt, hmf⟩ := readMask_encode_low h
  obtain ⟨hml, hms⟩ := readMask_encode_mode h
  obtain ⟨htl, hts⟩ := readMask_encode_type h
  obtain ⟨hfl, hfs⟩ := readMask_encode_feature h
  have hmsv : reqModeSv w' = reqModeSv w := field 4 1 hmm
  have htsv : reqTypeSv w' = reqTypeSv w := field 5 1 hmt
  have hfsv : reqFeatSv w' = reqFeatSv w := field 6 1 hmf
  apply encodeResponse_eq_of_read
  · exact congrArg dirOfCode (field 3 1 hmd)
  · simp only [reqValue, hmsv]
    exact symOfBits_eq_of_read _ fun h1 => field 32 2 (by rw [hms, if_pos h1])
  · simp only [reqValue, htsv]
    exact symOfBits_eq_of_read _ fun h1 => field 34 3 (by rw [hts, if_pos h1])
  · simp only [reqValue, hfsv]
    exact symOfBits_eq_of_read _ fun h1 => field 37 2 (by rw [hfs, if_pos h1])
  · exact fun hn => field 8 8 (by rw [hml, if_neg ((symOfBits_eq_none _).mp hn)])
  · exact fun hn => field 16 8 (by rw [htl, if_neg ((symOfBits_eq_none _).mp hn)])
  · exact fun hn => field 24 8 (by rw [hfl, if_neg ((symOfBits_eq_none _).mp hn)])

/-- Every format reads the operation code. -/
theorem readMask_op (w : ReqWord) : (readMask w).extractLsb' 0 3 = BitVec.allOnes 3 := by
  rcases reqOp_cases w with h | h | h | h | h | h | h | h
  · rw [readMask_pack h]; decide
  · rw [readMask_unpack h]; decide
  · rw [readMask_resolveType h]; decide
  · rw [readMask_resolveMode h]; decide
  · rw [readMask_resolveFeature h]; decide
  · exact (readMask_encode_low h).1
  · rw [readMask_decode h]; decide
  · rw [readMask_illegal h]; decide

/-- Settles O8: the two words have the same operation code, and the operation's format reads the same fields from both; of
ENCODE's members it reads the lane or the symbol. -/
theorem ignoredBitsHaveNoEffect : Obligations.IgnoredBitsHaveNoEffect := by
  intro w w' hw
  have hop : reqOp w' = reqOp w := extract_eq_of_mask hw 0 3 (readMask_op w)
  unfold answer
  rcases reqOp_cases w with h | h | h | h | h | h | h | h
  · rw [readMask_pack h] at hw
    rw [decodeReq_pack h, decodeReq_pack (hop.trans h)]
    simp (disch := decide) only [reqA, reqB, reqC, extract_eq_of_mask hw]
  · rw [readMask_unpack h] at hw
    rw [decodeReq_unpack h, decodeReq_unpack (hop.trans h)]
    simp (disch := decide) only [reqA, extract_eq_of_mask hw]
  · rw [readMask_resolveType h] at hw
    rw [decodeReq_resolveType h, decodeReq_resolveType (hop.trans h)]
    simp (disch := decide) only [reqDir, reqB, setWidth_extract, extract_eq_of_mask hw]
  · rw [readMask_resolveMode h] at hw
    rw [decodeReq_resolveMode h, decodeReq_resolveMode (hop.trans h)]
    simp (disch := decide) only [reqDir, reqA, setWidth_extract, extract_eq_of_mask hw]
  · rw [readMask_resolveFeature h] at hw
    rw [decodeReq_resolveFeature h, decodeReq_resolveFeature (hop.trans h)]
    simp (disch := decide) only [reqC, setWidth_extract, extract_eq_of_mask hw]
  · rw [decodeReq_encode h, decodeReq_encode (hop.trans h)]
    exact encodeResponse_reqValue_eq_of_mask h hw
  · rw [readMask_decode h] at hw
    rw [decodeReq_decode h, decodeReq_decode (hop.trans h)]
    simp (disch := decide) only [reqDir, reqA, extract_eq_of_mask hw]
  · rw [decodeReq_illegal h, decodeReq_illegal (hop.trans h)]

end Sys2Proof
end

section
/-! The family of spec/30_encoding.md, the words with their unread bits 0: the encoder gives back what was decoded, and the
assembler writes such words. -/

namespace Sys2Proof

/-! ### The encoding of what a word decodes to (R61, R62) -/

/-- A field whose high part is 0 is its low part, widened. -/
theorem setWidth_extract_of_high_zero {w : BitVec 40} (lo k j : Nat) (h : w.extractLsb' (lo + k) j = 0) :
    (w.extractLsb' lo k).setWidth (k + j) = w.extractLsb' lo (k + j) := by
  apply BitVec.eq_of_getLsbD_eq
  intro i hi
  by_cases hk : i < k
  · simp [hi, hk]
  · have hj : i - k < j := by omega
    have hbit := congrArg (BitVec.getLsbD · (i - k)) h
    have e : lo + k + (i - k) = lo + i := by omega
    simp only [BitVec.getLsbD_extractLsb', hj, e] at hbit
    simpa [hi, hk] using hbit.symm

section
variable {S : Type} {n : Nat} {ofId : BitVec n → S} {id : S → BitVec n}

@[simp] theorem svBit_symOfBits (sv : BitVec 1) (x : BitVec n) : svBit (symOfBits ofId sv x) = sv := by
  have hsv : sv = 0#1 ∨ sv = 1#1 := by revert sv; decide
  rcases hsv with rfl | rfl <;> rfl

/-- An id field that is 0 unless its `_sv` bit is 1 is written back as it was read. -/
theorem idBits_symOfBits {sv : BitVec 1} {x : BitVec n} (hid : ∀ x, id (ofId x) = x) (h : sv ≠ 1#1 → x = 0) :
    idBits id (symOfBits ofId sv x) = x := by
  unfold symOfBits
  split
  case isTrue => exact hid x
  case isFalse hsv => exact (h hsv).symm

end

/-- A word that is 0 outside a mask without the bits 7 and 39 is made of its fields (R61). -/
theorem portWord_fields_of_mask {w m : ReqWord} (hw : w &&& m = w) (h7 : m.extractLsb' 7 1 = 0)
    (h39 : m.extractLsb' 39 1 = 0) :
    portWord (reqOp w) (reqDir w) (reqModeSv w) (reqTypeSv w) (reqFeatSv w) (reqA w) (reqB w) (reqC w)
      (reqModeSym w) (reqTypeSym w) (reqFeatSym w) = w := by
  have bit : ∀ i (hi : i < 40), w.extractLsb' i 1 = 0 → w[i] = false := fun i hi h => by
    simpa [hi] using congrArg (BitVec.getLsbD · 0) h
  exact portWord_fields w (bit 7 (by decide) (extract_eq_zero_of_mask hw 7 1 h7))
    (bit 39 (by decide) (extract_eq_zero_of_mask hw 39 1 h39))

/-- Bits 7 and 39 are read by no format (R61). -/
theorem readMask_encode_unused {w : ReqWord} (h : reqOp w = 5) :
    (readMask w).extractLsb' 7 1 = 0 ∧ (readMask w).extractLsb' 39 1 = 0 := by
  rw [readMask_encode h]
  split_ifs <;> decide

/-- ENCODE keeps every field, and the symbol ids that it does not read are 0. -/
theorem encodeReq_reqValue {w : ReqWord} (h : reqOp w = 5) (hw : w &&& readMask w = w) :
    encodeReq (.encode (reqValue w)) = w := by
  obtain ⟨h7, h39⟩ := readMask_encode_unused h
  have zero := extract_eq_zero_of_mask hw
  have hmode : idBits modeId (reqValue w).mode.sym = reqModeSym w := idBits_symOfBits modeId_modeOfId fun hsv =>
    zero 32 2 (by rw [(readMask_encode_mode h).2, if_neg hsv])
  have htype : idBits typeId (reqValue w).type.sym = reqTypeSym w := idBits_symOfBits typeId_typeOfId fun hsv =>
    zero 34 3 (by rw [(readMask_encode_type h).2, if_neg hsv])
  have hfeature : idBits featId (reqValue w).feature.sym = reqFeatSym w := idBits_symOfBits featId_featOfId fun hsv =>
    zero 37 2 (by rw [(readMask_encode_feature h).2, if_neg hsv])
  refine Eq.trans ?_ (portWord_fields_of_mask hw h7 h39)
  rw [encodeReq, hmode, htype, hfeature, opCode, h]
  simp [reqValue]

/-- A word that is 0 outside a mask without the `_sv` bits and the symbol ids is made of its operation code, its direction and
its lanes. -/
theorem portWord_lanes_of_mask {w m : ReqWord} (hw : w &&& m = w) (hm : m &&& 0x00FFFFFF0F = m) :
    portWord (reqOp w) (reqDir w) 0 0 0 (reqA w) (reqB w) (reqC w) 0 0 0 = w := by
  have hw' : w &&& 0x00FFFFFF0F = w := by rw [← hw, BitVec.and_assoc, hm]
  refine Eq.trans ?_ (portWord_fields_of_mask hw' (by decide) (by decide))
  simp (disch := decide) only [reqModeSv, reqTypeSv, reqFeatSv, reqModeSym, reqTypeSym, reqFeatSym,
    extract_eq_zero_of_mask hw']

/-- Settles O7: the word is made of its fields, the encoder writes those that the format reads, and the others are 0. -/
theorem encodeOfDecode : Obligations.EncodeOfDecode := by
  intro w i hd hw
  rcases reqOp_cases w with h | h | h | h | h | h | h | h
  · cases (decodeReq_pack h).symm.trans hd
    rw [readMask_pack h] at hw
    refine Eq.trans ?_ (portWord_lanes_of_mask hw (by decide))
    simp (disch := decide) only [encodeReq, opCode, h, reqDir, extract_eq_zero_of_mask hw]
  · cases (decodeReq_unpack h).symm.trans hd
    rw [readMask_unpack h] at hw
    refine Eq.trans ?_ (portWord_lanes_of_mask hw (by decide))
    simp (disch := decide) only [encodeReq, opCode, h, reqDir, reqB, reqC, extract_eq_zero_of_mask hw]
  · cases (decodeReq_resolveType h).symm.trans hd
    rw [readMask_resolveType h] at hw
    have hraw := setWidth_extract_of_high_zero 16 4 4 (extract_eq_zero_of_mask hw 20 4 (by decide))
    refine Eq.trans ?_ (portWord_lanes_of_mask hw (by decide))
    simp (disch := decide) only [encodeReq, opCode, h, dirCode_dirOfCode, reqA, reqB, reqC, setWidth_extract, hraw,
      extract_eq_zero_of_mask hw]
  · cases (decodeReq_resolveMode h).symm.trans hd
    rw [readMask_resolveMode h] at hw
    have hraw := setWidth_extract_of_high_zero 8 2 6 (extract_eq_zero_of_mask hw 10 6 (by decide))
    refine Eq.trans ?_ (portWord_lanes_of_mask hw (by decide))
    simp (disch := decide) only [encodeReq, opCode, h, dirCode_dirOfCode, reqA, reqB, reqC, setWidth_extract, hraw,
      extract_eq_zero_of_mask hw]
  · cases (decodeReq_resolveFeature h).symm.trans hd
    rw [readMask_resolveFeature h] at hw
    have hraw := setWidth_extract_of_high_zero 24 2 6 (extract_eq_zero_of_mask hw 26 6 (by decide))
    refine Eq.trans ?_ (portWord_lanes_of_mask hw (by decide))
    simp (disch := decide) only [encodeReq, opCode, h, reqDir, reqA, reqB, reqC, setWidth_extract, hraw,
      extract_eq_zero_of_mask hw]
  · cases (decodeReq_encode h).symm.trans hd
    exact encodeReq_reqValue h hw
  · cases (decodeReq_decode h).symm.trans hd
    rw [readMask_decode h] at hw
    refine Eq.trans ?_ (portWord_lanes_of_mask hw (by decide))
    simp (disch := decide) only [encodeReq, opCode, h, dirCode_dirOfCode, reqB, reqC, extract_eq_zero_of_mask hw]
  · cases (decodeReq_illegal h).symm.trans hd

/-! ### Words with every unread bit 0 (R77) -/

@[simp] theorem putBits_zero (lo n : Nat) : putBits lo 0#n = 0#40 := by
  simp [putBits]

/-- A number that was widened to fill its lane is put as it is. -/
theorem putBits_setWidth {n k lo : Nat} (v : BitVec n) (h : n ≤ k) : putBits lo (v.setWidth k) = putBits lo v := by
  simp [putBits, h]

/-- A mask leaves a field that it covers. -/
theorem putBits_and_of_covered {n lo : Nat} (v : BitVec n) {m : BitVec 40} (hm : m.extractLsb' lo n = BitVec.allOnes n) :
    putBits lo v &&& m = putBits lo v := by
  apply BitVec.eq_of_getLsbD_eq
  intro i hi
  rw [BitVec.getLsbD_and, getLsbD_putBits v hi, Bool.and_eq_left_iff_imp]
  intro hv
  obtain ⟨hlo, hbit⟩ := (Bool.and_eq_true_iff ..).mp hv
  have hn : i - lo < n := BitVec.lt_of_getLsbD hbit
  have e : lo + (i - lo) = i := Nat.add_sub_cancel' (of_decide_eq_true hlo)
  simpa [hn, e] using congrArg (BitVec.getLsbD · (i - lo)) hm

/-- ENCODE's mask leaves a member that has no symbol beside a lane other than 0. -/
theorem member_and_mask {S : Type} {n lane lo : Nat} (id : S → BitVec n) {m : Member S} {mask : BitVec 40}
    (hm : m.sym = none ∨ m.raw = 0)
    (hlane : mask.extractLsb' lane 8 = if svBit m.sym = 1#1 then 0 else BitVec.allOnes 8)
    (hid : mask.extractLsb' lo n = if svBit m.sym = 1#1 then BitVec.allOnes n else 0) :
    putBits lane m.raw &&& mask = putBits lane m.raw ∧
    putBits lo (idBits id m.sym) &&& mask = putBits lo (idBits id m.sym) := by
  cases hs : m.sym with
  | none =>
    rw [hs] at hlane
    exact ⟨putBits_and_of_covered _ hlane, by simp [idBits]⟩
  | some x =>
    rw [hs] at hid
    have hraw : m.raw = 0 := hm.resolve_left (by simp [hs])
    exact ⟨by simp [hraw], putBits_and_of_covered _ hid⟩

/-- ENCODE's word has its unread bits 0 when no lane other than 0 stands beside a symbol. -/
theorem encodeReq_encode_and_readMask {v : AttributeValue} (hm : v.mode.sym = none ∨ v.mode.raw = 0)
    (ht : v.type.sym = none ∨ v.type.raw = 0) (hf : v.feature.sym = none ∨ v.feature.raw = 0) :
    encodeReq (.encode v) &&& readMask (encodeReq (.encode v)) = encodeReq (.encode v) := by
  have h : reqOp (encodeReq (.encode v)) = 5 := reqOp_encodeReq _
  have hmsv : reqModeSv (encodeReq (.encode v)) = svBit v.mode.sym := reqModeSv_portWord ..
  have htsv : reqTypeSv (encodeReq (.encode v)) = svBit v.type.sym := reqTypeSv_portWord ..
  have hfsv : reqFeatSv (encodeReq (.encode v)) = svBit v.feature.sym := reqFeatSv_portWord ..
  obtain ⟨hop, hd, h4, h5, h6⟩ := readMask_encode_low h
  have mode := readMask_encode_mode h
  have type := readMask_encode_type h
  have feature := readMask_encode_feature h
  rw [hmsv] at mode
  rw [htsv] at type
  rw [hfsv] at feature
  obtain ⟨hml, hms⟩ := member_and_mask modeId hm mode.1 mode.2
  obtain ⟨htl, hts⟩ := member_and_mask typeId ht type.1 type.2
  obtain ⟨hfl, hfs⟩ := member_and_mask featId hf feature.1 feature.2
  generalize readMask (encodeReq (.encode v)) = mask at *
  simp only [encodeReq, portWord, BitVec.and_or_distrib_right, putBits_and_of_covered _ hop, putBits_and_of_covered _ hd,
    putBits_and_of_covered _ h4, putBits_and_of_covered _ h5, putBits_and_of_covered _ h6, hml, hms, htl, hts, hfl, hfs]

/-- A member of `encode` as written has no lane other than 0 beside a symbol (R77). -/
theorem asmMember_sym_none_or_raw_zero {S : Type} (opd : Option (AsmOperand S)) :
    (Machine.asmMember opd).sym = none ∨ (Machine.asmMember opd).raw = 0 := by
  match opd with
  | some (.num n) => exact .inl rfl
  | some (.sym x) => exact .inr rfl
  | none => exact .inl rfl

/-- The assembler writes every bit that the format ignores 0. -/
theorem encodeReq_asmInstr_and_readMask (c : AsmCall) :
    encodeReq (Machine.asmInstr c) &&& readMask (encodeReq (Machine.asmInstr c)) = encodeReq (Machine.asmInstr c) := by
  have h := reqOp_encodeReq (Machine.asmInstr c)
  cases c with
  | pack m t f =>
    rw [readMask_pack h]
    simp (disch := decide) [Machine.asmInstr, encodeReq, portWord, BitVec.and_or_distrib_right, putBits_and_of_covered]
  | unpack b =>
    rw [readMask_unpack h]
    simp (disch := decide) [Machine.asmInstr, encodeReq, portWord, BitVec.and_or_distrib_right, putBits_and_of_covered]
  | resolveType d r =>
    rw [readMask_resolveType h]
    simp (disch := decide) [Machine.asmInstr, encodeReq, portWord, BitVec.and_or_distrib_right, putBits_and_of_covered,
      putBits_setWidth]
  | resolveMode d r =>
    rw [readMask_resolveMode h]
    simp (disch := decide) [Machine.asmInstr, encodeReq, portWord, BitVec.and_or_distrib_right, putBits_and_of_covered,
      putBits_setWidth]
  | resolveFeature r =>
    rw [readMask_resolveFeature h]
    simp (disch := decide) [Machine.asmInstr, encodeReq, portWord, BitVec.and_or_distrib_right, putBits_and_of_covered,
      putBits_setWidth]
  | encode d m t f =>
    exact encodeReq_encode_and_readMask (asmMember_sym_none_or_raw_zero m) (asmMember_sym_none_or_raw_zero t)
      (asmMember_sym_none_or_raw_zero f)
  | decode d b =>
    rw [readMask_decode h]
    simp (disch := decide) [Machine.asmInstr, encodeReq, portWord, BitVec.and_or_distrib_right, putBits_and_of_covered]

/-! ### What a call stands for (R77) -/

/-- A number in range is the value of its field. -/
theorem toNat_ofNat_of_lt {k n : Nat} (h : n < 2 ^ k) : (BitVec.ofNat k n).toNat = n := by
  rw [BitVec.toNat_ofNat, Nat.mod_eq_of_lt h]

theorem memberStandsFor_asmMember {S : Type} {opd : Option (AsmOperand S)} (h : AsmOperand.wellFormed opd = true) :
    MemberStandsFor opd (Machine.asmMember opd) := by
  match opd with
  | some (.num n) => exact ⟨rfl, toNat_ofNat_of_lt (of_decide_eq_true h)⟩
  | some (.sym x) => exact ⟨rfl, rfl⟩
  | none => exact ⟨rfl, rfl⟩

/-- A number in R77's range is the operand of its instruction. -/
theorem callStandsFor_asmInstr {c : AsmCall} (h : c.wellFormed = true) : CallStandsFor c (Machine.asmInstr c) := by
  cases c with
  | pack m t f =>
    simp only [AsmCall.wellFormed, Bool.and_eq_true, decide_eq_true_eq] at h
    obtain ⟨⟨hm, ht⟩, hf⟩ := h
    exact ⟨_, _, _, rfl, toNat_ofNat_of_lt hm, toNat_ofNat_of_lt ht, toNat_ofNat_of_lt hf⟩
  | unpack b => exact ⟨_, rfl, toNat_ofNat_of_lt (of_decide_eq_true h)⟩
  | resolveType d r => exact ⟨_, rfl, toNat_ofNat_of_lt (of_decide_eq_true h)⟩
  | resolveMode d r => exact ⟨_, rfl, toNat_ofNat_of_lt (of_decide_eq_true h)⟩
  | resolveFeature r => exact ⟨_, rfl, toNat_ofNat_of_lt (of_decide_eq_true h)⟩
  | encode d m t f =>
    simp only [AsmCall.wellFormed, Bool.and_eq_true] at h
    obtain ⟨⟨hm, ht⟩, hf⟩ := h
    exact ⟨_, rfl, rfl, memberStandsFor_asmMember hm, memberStandsFor_asmMember ht, memberStandsFor_asmMember hf⟩
  | decode d b => exact ⟨_, rfl, toNat_ofNat_of_lt (of_decide_eq_true h)⟩

/-- Settles O9: the word is the encoding of the call's instruction, so it decodes to it (O6), and its fields are read back. -/
theorem assembledCallDecodes : Obligations.AssembledCallDecodes := by
  intro c hc
  refine ⟨encodeReq (Machine.asmInstr c), Machine.asmInstr c, if_pos hc, decodeOfEncode _, callStandsFor_asmInstr hc,
    encodeReq_asmInstr_and_readMask c, ?symbols⟩
  rintro d m t f rfl
  refine ⟨?mode, ?type, ?feature⟩
  case mode =>
    rintro x rfl
    exact ⟨reqModeSv_portWord .., reqModeSym_portWord ..⟩
  case type =>
    rintro x rfl
    exact ⟨reqTypeSv_portWord .., reqTypeSym_portWord ..⟩
  case feature =>
    rintro x rfl
    exact ⟨reqFeatSv_portWord .., reqFeatSym_portWord ..⟩

end Sys2Proof
end

section
/-! The family of spec/30_encoding.md, the response port: settled ports, the fixed bits of a success, operation code 7. -/

namespace Sys2Proof.Machine

/-- Settles O14: a step answers the presented word with a word that the answer admits, or presents nothing and idles. -/
theorem stepSettlesPorts : Obligations.StepSettlesPorts := by
  intro s
  rcases step_cases s with ⟨hv, hs⟩ | ⟨hv, hs⟩
  · refine ⟨_, hs, by simp [hv], fun _ => ?_⟩
    rw [respond_req]
    exact respond_admits _ _
  · exact ⟨_, hs, by simp [hv], by simp [hv]⟩

/-- Operation code 7 is answered with IllegalOp (R74). -/
theorem answer_illegal {w : ReqWord} (h : reqOp w = 7) : answer w = .error .illegalOp := by
  simp [answer, decodeReq_illegal h]

/-! ### The direction bit and the symbol ids of a success (R70, R72) -/

/-- PACK succeeds with the byte alone. -/
theorem payload_of_packResponse_ok {m t f : Lane} {p : Payload} (h : packResponse m t f = .ok p) :
    p = { a := packByte m t f } := by
  rcases packResponse_cases m t f with ⟨-, -, -, hp⟩ | ⟨-, hp⟩
  · cases hp.symm.trans h
    rfl
  · cases hp.symm.trans h

/-- ENCODE succeeds with PACK's payload. -/
theorem payload_of_encodeResponse_ok {v : AttributeValue} {p : Payload} (h : encodeResponse v = .ok p) :
    p = { a := packByte (modeRaw v.mode) (typeRaw v.type) (featureRaw v.feature) } := by
  rcases encodeResponse_cases v with ⟨-, he⟩ | ⟨-, he⟩
  · cases he.symm.trans h
  · exact payload_of_packResponse_ok (he.symm.trans h)

/-- Only DECODE's payload carries a direction. -/
theorem payload_dir_eq_zero_of_opCode_ne {i : Instr} {p : Payload} (h : answerOf i = .ok p) (hi : opCode i ≠ 6) :
    p.dir = 0 := by
  cases i with
  | pack => rw [payload_of_packResponse_ok h]
  | encode => rw [payload_of_encodeResponse_ok h]
  | decode => exact absurd rfl hi
  | unpack => cases h; rfl
  | resolveType => cases h; rfl
  | resolveMode => cases h; rfl
  | resolveFeature => cases h; rfl

/-- The direction of a success is the request's after DECODE, else 0 (R70). -/
theorem payload_dir_of_answer_ok {w : ReqWord} {p : Payload} (h : answer w = .ok p) :
    p.dir = if reqOp w = 6 then reqDir w else 0 := by
  by_cases h6 : reqOp w = 6
  · rw [answer_of_decodeReq_ok (decodeReq_decode h6)] at h
    cases h
    rw [if_pos h6]
    exact dirCode_dirOfCode _
  · rw [if_neg h6]
    rcases decodeReq_cases w with ⟨i, hd, hop⟩ | ⟨-, h7⟩
    · exact payload_dir_eq_zero_of_opCode_ne ((answer_of_decodeReq_ok hd).symm.trans h) (hop ▸ h6)
    · cases (answer_illegal h7).symm.trans h

/-- An absent symbol has id 0. -/
theorem idBits_eq_zero_of_svBit {S : Type} {n : Nat} (id : S → BitVec n) {sym : Option S} (h : svBit sym = 0) :
    idBits id sym = 0 := by
  cases sym with
  | none => rfl
  | some x => exact absurd h (by decide : (1 : BitVec 1) ≠ 0)

/-- Bit 2 of a success is 0: the status stands in two bits. -/
theorem extract_two_payloadWord (p : Payload) : (payloadWord p).extractLsb' 2 1 = 0 := by
  have h : (payloadWord p).extractLsb' 2 1 = (reqOp (payloadWord p)).extractLsb' 2 1 := by
    rw [reqOp, BitVec.extractLsb'_extractLsb'_of_le (by decide)]
  rw [h, payloadWord, reqOp_portWord]
  rfl

/-- Settles O39: a status of OK stands only for a payload, whose word has the layout of R70. -/
theorem successfulResponseLayout : Obligations.SuccessfulResponseLayout := by
  intro s w rest hs
  refine ⟨_, step_request hs, respond_rspValid _ _, fun h0 => ?_⟩
  obtain ⟨p, hp, hx⟩ := exists_payload_of_admits (respond_admits _ _) h0
  rw [hx]
  refine ⟨extract_two_payloadWord p, extract_seven_portWord .., extract_thirty_nine_portWord .., ?mode, ?type, ?feature, ?dir⟩
  case mode =>
    intro hsv
    exact (rspModeSym_payloadWord p).trans (idBits_eq_zero_of_svBit _ ((rspModeSv_payloadWord p).symm.trans hsv))
  case type =>
    intro hsv
    exact (rspTypeSym_payloadWord p).trans (idBits_eq_zero_of_svBit _ ((rspTypeSv_payloadWord p).symm.trans hsv))
  case feature =>
    intro hsv
    exact (rspFeatSym_payloadWord p).trans (idBits_eq_zero_of_svBit _ ((rspFeatSv_payloadWord p).symm.trans hsv))
  case dir => exact (rspDir_payloadWord p).trans (payload_dir_of_answer_ok hp)

/-! ### Operation code 7 (R74) -/

/-- Settles O12: the step responds with IllegalOp, whose code is 3. -/
theorem illegalOpAnswersStatusThree : Obligations.IllegalOpAnswersStatusThree := by
  intro s w rest hs h7
  obtain ⟨x, n, hr, hx⟩ := respond_error .illegalOp { s with host := rest, reqValid := true, req := w }
  exact ⟨x, n, by rw [step_request hs, answer_illegal h7, hr], hx⟩

end Sys2Proof.Machine
end

section
/-! The family of spec/30_encoding.md, the tables of ids and the textual form (R66 to R68, R77). -/

namespace Sys2Proof.Machine

/-- Settles O1: the ids are 4, 8 and 4 numbers, so each fact is compared at every one; the symbols come back by the laws of the
codes. -/
theorem symbolIdsAndCodes : Obligations.SymbolIdsAndCodes := by
  refine ⟨?modeIds, ?modeCodes, ?typeIds, ?typeTable, ?featIds, ?featCodes, modeOfId_modeId, typeOfId_typeId,
    featOfId_featId⟩
  case modeIds => decide
  case modeCodes => decide
  case typeIds => decide
  case typeTable => decide
  case featIds => decide
  case featCodes => decide

/-- Settles O4: the decoder evaluates at each written word; the last has operation code 7. -/
theorem writtenWordsDecode : Obligations.WrittenWordsDecode := by
  refine ⟨?pack, ?unpack, ?resolveType, ?resolveMode, ?resolveFeature, ?encodeSymbols, ?encodeNumbers, ?decode, ?illegal⟩
  case pack => decide
  case unpack => decide
  case resolveType => decide
  case resolveMode => decide
  case resolveFeature => decide
  case encodeSymbols => decide
  case encodeNumbers => decide
  case decode => decide
  case illegal => exact decodeReq_illegal (by decide)

/-- Settles O10: the assembler evaluates at each text. -/
theorem assembledTexts : Obligations.AssembledTexts := by
  refine ⟨?encode, ?decode, ?refused⟩
  case encode => decide
  case decode => decide
  case refused => decide

/-- R71's names of the errors. -/
def errorName : ErrorKind → String
  | .outOfRange => "OutOfRange"
  | .invalidForDirection => "InvalidForDirection"
  | .illegalOp => "IllegalOp"

/-- A failed response is written as its error's name, whatever its other bits (R77). -/
theorem resultText_of_error (op : BitVec 3) {x : RspWord} (e : ErrorKind) (h : rspStatus x = errorCode e) :
    resultText op x = errorName e := by
  unfold resultText
  rw [h]
  cases e <;> rfl

/-- An operation that fails puts its error's status on the port. -/
theorem exec_of_answerOf_error {i : Instr} {e : ErrorKind} (h : answerOf i = .error e) (s : State) :
    ∃ t, exec i s = .next t ∧ rspStatus t.rsp = errorCode e := by
  rw [exec_eq_respond, h]
  exact ⟨_, rfl, respond_admits (.error e) s⟩

/-- Settles O41: a success puts its payload's word on the port, which evaluates to its text; a failure's text is its name. -/
theorem resultTexts : Obligations.ResultTexts := by
  refine ⟨fun s => ⟨?pack, ?unpack, ?some, ?none, ?outOfRange⟩, fun op x => ⟨?one, ?two, ?three⟩⟩
  case pack =>
    have text : resultText 0 (payloadWord { a := packByte 3 0 1 }) = "0x43" := by decide
    exact ⟨_, exec_of_answerOf_ok rfl s, text⟩
  case unpack =>
    have text : resultText 1 (payloadWord
        { a := extractSub .mode 0x43, b := extractSub .type 0x43, c := extractSub .feature 0x43 }) = "(3, 0, 1)" := by
      decide
    exact ⟨_, exec_of_answerOf_ok rfl s, text⟩
  case some =>
    have text : resultText 2 (payloadWord { typeSym := typeSymOf .centerToEntity 1 }) = "Some(SME_DELIVERY_RECEIPT)" := by
      decide
    exact ⟨_, exec_of_answerOf_ok rfl s, text⟩
  case none =>
    have text : resultText 2 (payloadWord { typeSym := typeSymOf .entityToCenter 1 }) = "None" := by decide
    exact ⟨_, exec_of_answerOf_ok rfl s, text⟩
  case outOfRange =>
    obtain ⟨t, ht, hx⟩ := exec_of_answerOf_error (by decide : answerOf (.pack 4 0 0) = .error .outOfRange) s
    exact ⟨t, ht, resultText_of_error 0 .outOfRange hx⟩
  case one => exact fun h => resultText_of_error op .outOfRange h
  case two => exact fun h => resultText_of_error op .invalidForDirection h
  case three => exact fun h => resultText_of_error op .illegalOp h

end Sys2Proof.Machine
end

section
/-! The family of spec/40_codec.md: the byte of PACK in numbers, and PACK and UNPACK as inverses of each other through the
port words. -/

namespace Sys2Proof.Machine

/-! ### The byte and its three numbers (R90 to R92, R95) -/

/-- PACK's byte, shift by shift: the mode stands at position 0. -/
theorem packByte_eq_shifts (m t f : Lane) : packByte m t f = f <<< 6 ||| t <<< 2 ||| m := by
  simp [packByte, insertSub, subOffset]

/-- Three numbers that fit stand beside each other in the byte: each OR joins disjoint bits, so it is a sum. -/
theorem toNat_packByte {m t f : Lane} (hm : m.toNat < 4) (ht : t.toNat < 16) (hf : f.toNat < 4) :
    (packByte m t f).toNat = 64 * f.toNat + 4 * t.toNat + m.toNat := by
  have hlow : t.toNat <<< 2 + m.toNat = t.toNat <<< 2 ||| m.toNat := Nat.shiftLeft_add_eq_or_of_lt hm _
  have hlt : t.toNat <<< 2 + m.toNat < 2 ^ 6 := by rw [Nat.shiftLeft_eq]; omega
  have hall := Nat.shiftLeft_add_eq_or_of_lt hlt f.toNat
  have ht8 : t.toNat <<< 2 < 2 ^ 8 := by rw [Nat.shiftLeft_eq]; omega
  have hf8 : f.toNat <<< 6 < 2 ^ 8 := by rw [Nat.shiftLeft_eq]; omega
  rw [packByte_eq_shifts, BitVec.toNat_or, BitVec.toNat_or, BitVec.toNat_shiftLeft, BitVec.toNat_shiftLeft,
    Nat.mod_eq_of_lt ht8, Nat.mod_eq_of_lt hf8, Nat.or_assoc, ← hlow, ← hall, Nat.shiftLeft_eq, Nat.shiftLeft_eq]
  omega

/-- UNPACK's numbers are the digits of the byte. -/
theorem toNat_extractSub_mode (b : Byte) : (extractSub .mode b).toNat = b.toNat % 4 := by
  revert b; decide

theorem toNat_extractSub_type (b : Byte) : (extractSub .type b).toNat = b.toNat / 4 % 16 := by
  revert b; decide

theorem toNat_extractSub_feature (b : Byte) : (extractSub .feature b).toNat = b.toNat / 64 := by
  revert b; decide

/-- The numbers of PACK's byte are the numbers packed (R94). -/
theorem unpackResponse_packByte {m t f : Lane} (hm : m.toNat < 4) (ht : t.toNat < 16) (hf : f.toNat < 4) :
    unpackResponse (packByte m t f) = .ok { a := m, b := t, c := f } := by
  have hbyte := toNat_packByte hm ht hf
  have hmode : extractSub .mode (packByte m t f) = m := BitVec.eq_of_toNat_eq (by rw [toNat_extractSub_mode]; omega)
  have htype : extractSub .type (packByte m t f) = t := BitVec.eq_of_toNat_eq (by rw [toNat_extractSub_type]; omega)
  have hfeature : extractSub .feature (packByte m t f) = f :=
    BitVec.eq_of_toNat_eq (by rw [toNat_extractSub_feature]; omega)
  rw [unpackResponse, hmode, htype, hfeature]

/-- The byte of UNPACK's numbers is the byte unpacked (R93). -/
theorem packResponse_extractSub (b : Byte) :
    packResponse (extractSub .mode b) (extractSub .type b) (extractSub .feature b) = .ok { a := b } := by
  have hm := extractSub_lt .mode b
  have ht := extractSub_lt .type b
  have hf := extractSub_lt .feature b
  have hbyte : packByte (extractSub .mode b) (extractSub .type b) (extractSub .feature b) = b := by
    apply BitVec.eq_of_toNat_eq
    rw [toNat_packByte hm ht hf, toNat_extractSub_mode, toNat_extractSub_type, toNat_extractSub_feature]
    omega
  rw [packResponse_ok hm ht hf, hbyte]

/-- PACK succeeds on numbers that fit, and on no others (R91). -/
theorem packResponse_eq_ok_iff {m t f : Lane} {p : Payload} : packResponse m t f = .ok p ↔
    m.toNat < 4 ∧ t.toNat < 16 ∧ f.toNat < 4 ∧ p = { a := packByte m t f } := by
  constructor
  · intro h
    rcases packResponse_cases m t f with ⟨hm, ht, hf, -⟩ | ⟨-, he⟩
    · exact ⟨hm, ht, hf, payload_of_packResponse_ok h⟩
    · cases he.symm.trans h
  · rintro ⟨hm, ht, hf, rfl⟩
    exact packResponse_ok hm ht hf

/-! ### The word of a response that carries lanes (R70, R72) -/

theorem payloadWord_lanes (a b c : Lane) :
    payloadWord { a := a, b := b, c := c } = putBits 8 a ||| putBits 16 b ||| putBits 24 c := by
  simp [payloadWord, portWord, okCode, svBit, idBits]

theorem payloadWord_byte (b : Byte) : payloadWord { a := b } = putBits 8 b := by
  refine (payloadWord_lanes b 0 0).trans ?_
  simp

/-- The lanes of a request, sent back as a response, are the request with every other bit 0. -/
theorem payloadWord_req_lanes (w : ReqWord) :
    payloadWord { a := reqA w, b := reqB w, c := reqC w } = w &&& 0x00FFFFFF00 := by
  have hkeep : (w &&& 0x00FFFFFF00) &&& 0x00FFFFFF00 = w &&& 0x00FFFFFF00 := by
    rw [BitVec.and_assoc, BitVec.and_self]
  refine Eq.trans ?_ (portWord_lanes_of_mask hkeep (by decide))
  simp (disch := decide) only [reqOp, reqDir, reqA, reqB, reqC, extract_eq_zero_of_mask hkeep, extract_eq_of_mask hkeep]
  rfl

/-! ### A successful response as the next request (R80) -/

/-- A step that serves a request whose answer is a success. -/
theorem step_of_answer_ok {s : State} {w : ReqWord} {rest : List Drive} {p : Payload} (hs : s.host = ⟨true, w⟩ :: rest)
    (h : answer w = .ok p) :
    step s = .next { s with host := rest, reqValid := true, req := w, rspValid := true, rsp := payloadWord p } := by
  rw [step_request hs, h, respond_ok]

theorem answer_pack {w : ReqWord} (h : reqOp w = 0) : answer w = packResponse (reqA w) (reqB w) (reqC w) :=
  answer_of_decodeReq_ok (decodeReq_pack h)

theorem answer_unpack {w : ReqWord} (h : reqOp w = 1) : answer w = unpackResponse (reqA w) :=
  answer_of_decodeReq_ok (decodeReq_unpack h)

/-- As it stands, a successful response is a PACK of its lanes: status OK is PACK's operation code. -/
theorem answer_payloadWord (p : Payload) : answer (payloadWord p) = packResponse p.a p.b p.c := by
  have hop : reqOp (payloadWord p) = 0 := reqOp_portWord ..
  have ha : reqA (payloadWord p) = p.a := reqA_portWord ..
  have hb : reqB (payloadWord p) = p.b := reqB_portWord ..
  have hc : reqC (payloadWord p) = p.c := reqC_portWord ..
  rw [answer_pack hop, ha, hb, hc]

/-- With `op` set to 1, a successful response is an UNPACK of its lane a. -/
theorem answer_payloadWord_or_one (p : Payload) : answer (payloadWord p ||| 1) = unpackResponse p.a := by
  have hop : reqOp (payloadWord p ||| 1) = 1 := reqOp_payloadWord_or p 1
  have ha : reqA (payloadWord p ||| 1) = p.a := congrArg (·.mode.raw) (reqValue_payloadWord_or p 1)
  rw [answer_unpack hop, ha]

/-- Settles O22: the response to UNPACK is a PACK of its three numbers, whose byte is the one unpacked. -/
theorem packAfterUnpackGivesByte : Obligations.PackAfterUnpackGivesByte := by
  intro s w rest hs hop
  refine ⟨_, step_of_answer_ok hs (answer_unpack hop), rspStatus_payloadWord _, ?mode, ?type, ?feature,
    fun s' rest' hs' => ⟨_, step_of_answer_ok hs' ((answer_payloadWord _).trans (packResponse_extractSub _)),
      payloadWord_byte _⟩⟩
  case mode => rw [rspA_payloadWord]; exact extractSub_lt .mode _
  case type => rw [rspB_payloadWord]; exact extractSub_lt .type _
  case feature => rw [rspC_payloadWord]; exact extractSub_lt .feature _

/-- Settles O23: the response to PACK with `op` 1 is an UNPACK of its byte, whose numbers are those packed; and every byte is
packed from the numbers UNPACK gives of it. -/
theorem unpackAfterPackGivesTriple : Obligations.UnpackAfterPackGivesTriple := by
  refine ⟨fun s w rest hs hop hm ht hf => ?inverse, fun s b => ?onto⟩
  case inverse =>
    refine ⟨_, step_of_answer_ok hs ((answer_pack hop).trans (packResponse_ok hm ht hf)), rspStatus_payloadWord _, ?_⟩
    intro s' rest' hs'
    have hback := (answer_payloadWord_or_one { a := packByte _ _ _ }).trans (unpackResponse_packByte hm ht hf)
    exact ⟨_, step_of_answer_ok hs' hback, payloadWord_req_lanes w⟩
  case onto =>
    exact ⟨_, _, _, extractSub_lt .mode b, extractSub_lt .type b, extractSub_lt .feature b,
      _, exec_of_answerOf_ok (i := .pack _ _ _) (packResponse_extractSub b) s, rspStatus_payloadWord _, rspA_payloadWord _⟩

/-! ### PACK and UNPACK each (R91, R92, R95) -/

/-- Settles O19: the two outcomes of PACK's logic, each with its word on the response port. -/
theorem packResult : Obligations.PackResult := by
  refine ⟨fun w h => decodeReq_pack h, fun s m t f hm ht hf => ?fits, fun s m t f h => ?outOfRange⟩
  case fits =>
    rw [exec_of_answerOf_ok (i := .pack m t f) (packResponse_ok hm ht hf) s, payloadWord_byte, packByte_eq_shifts]
    rfl
  case outOfRange =>
    rcases packResponse_cases m t f with ⟨hm, ht, hf, -⟩ | ⟨-, he⟩
    · omega
    · obtain ⟨x, n, hr, hx⟩ := respond_error .outOfRange s
      exact ⟨x, n, by rw [exec_eq_respond, answerOf, he, hr], hx⟩

/-- Settles O20: a status of OK stands only for PACK's success, so the numbers fit and the byte is their sum. -/
theorem packNeverTruncates : Obligations.PackNeverTruncates := by
  intro s u m t f hu h0
  cases (exec_eq_respond (.pack m t f) s).symm.trans hu
  obtain ⟨p, hp, hx⟩ := exists_payload_of_admits (respond_admits _ s) h0
  obtain ⟨hm, ht, hf, rfl⟩ := packResponse_eq_ok_iff.mp hp
  exact ⟨hm, ht, hf, by rw [hx, rspA_payloadWord, toNat_packByte hm ht hf]⟩

/-- Settles O21: UNPACK has one outcome, and its three lanes are its whole word. -/
theorem unpackResult : Obligations.UnpackResult := by
  refine ⟨fun w h => decodeReq_unpack h, fun s b => ?_⟩
  rw [exec_of_answerOf_ok (i := .unpack b) rfl s, payloadWord_lanes]
  simp only [extractSub, geometry_mode, geometry_type, geometry_feature, BitVec.ushiftRight_zero]
  rfl

/-! ### Success and accepted operands (R91, R115, R150) -/

/-- The status on the port tells a success from a failure (R71). -/
theorem rspStatus_respond_eq_zero_iff (r : Response) (s : State) :
    rspStatus (respond r s).rsp = 0 ↔ ∃ p, r = .ok p := by
  constructor
  · intro h0
    obtain ⟨p, hp, -⟩ := exists_payload_of_admits (respond_admits r s) h0
    exact ⟨p, hp⟩
  · rintro ⟨p, rfl⟩
    exact rspStatus_payloadWord p

/-- PACK's logic succeeds exactly on numbers that fit. -/
theorem exists_packResponse_ok_iff (m t f : Lane) :
    (∃ p, packResponse m t f = .ok p) ↔ m.toNat < 4 ∧ t.toNat < 16 ∧ f.toNat < 4 := by
  simp [packResponse_eq_ok_iff]

theorem foreignSym_eq_not_all {S : Type} (member : S → Bool) (sym : Option S) :
    foreignSym member sym = !sym.all member := by
  cases sym with
  | none => rfl
  | some x => rfl

/-- The validator accepts exactly the values whose supplied symbols are members. -/
theorem foreignValue_eq_false_iff (v : AttributeValue) : foreignValue v = false ↔
    v.mode.sym.all (modeMember v.dir) = true ∧ v.type.sym.all (typeMember v.dir) = true := by
  simp only [foreignValue, foreignSym_eq_not_all, Bool.or_eq_false_iff, Bool.not_eq_false']

/-- ENCODE's logic succeeds exactly when no symbol is foreign and PACK's logic succeeds on the raw numbers. -/
theorem exists_encodeResponse_ok_iff (v : AttributeValue) : (∃ p, encodeResponse v = .ok p) ↔
    foreignValue v = false ∧ ∃ p, packResponse (modeRaw v.mode) (typeRaw v.type) (featureRaw v.feature) = .ok p := by
  rcases encodeResponse_cases v with ⟨hv, he⟩ | ⟨hv, he⟩
  · simp [hv, he]
  · simp [hv, he]

/-- An operation's answer is a success exactly when its operands are the accepted ones. -/
theorem exists_answerOf_ok_iff (i : Instr) : (∃ p, answerOf i = .ok p) ↔ i.wellFormed = true := by
  cases i with
  | pack m t f => simp [answerOf, exists_packResponse_ok_iff, Instr.wellFormed, and_assoc]
  | encode v =>
    simp [answerOf, exists_encodeResponse_ok_iff, foreignValue_eq_false_iff, exists_packResponse_ok_iff, Instr.wellFormed,
      and_assoc]
  | unpack => exact iff_of_true ⟨_, rfl⟩ rfl
  | resolveType => exact iff_of_true ⟨_, rfl⟩ rfl
  | resolveMode => exact iff_of_true ⟨_, rfl⟩ rfl
  | resolveFeature => exact iff_of_true ⟨_, rfl⟩ rfl
  | decode => exact iff_of_true ⟨_, rfl⟩ rfl

/-- Settles O38: every operation responds with its answer, which is a success exactly on accepted operands. -/
theorem succeedsIffOperandsAccepted : Obligations.SucceedsIffOperandsAccepted := fun i s =>
  ⟨_, exec_eq_respond i s, (rspStatus_respond_eq_zero_iff _ s).trans (exists_answerOf_ok_iff i)⟩

end Sys2Proof.Machine
end

section
/-! The family of spec/41_directional.md: the tables against the codes, the RESOLVE operations, ENCODE, DECODE, and DECODE and
ENCODE as inverses of each other. -/

namespace Sys2Proof.Machine

/-! ### Membership, codes and tables (R110) -/

/-- The mode table resolves a raw number exactly to the member with that code. -/
theorem modeSymOf_eq_some_iff {d : Direction} {r : BitVec 2} {x : ModeSymbol} :
    modeSymOf d r = some x ↔ modeMember d x = true ∧ modeCode x = r := by
  revert r
  cases d <;> cases x <;> decide

/-- The type table of a direction resolves a raw number exactly to the direction's member with that code. -/
theorem typeSymOf_eq_some_iff {d : Direction} {r : BitVec 4} {x : TypeSymbol} :
    typeSymOf d r = some x ↔ typeMember d x = true ∧ typeCode x = r := by
  revert r
  cases d <;> cases x <;> decide

theorem modeSymOf_modeCode {d : Direction} {x : ModeSymbol} (h : modeMember d x = true) :
    modeSymOf d (modeCode x) = some x := modeSymOf_eq_some_iff.mpr ⟨h, rfl⟩

theorem typeSymOf_typeCode {d : Direction} {x : TypeSymbol} (h : typeMember d x = true) :
    typeSymOf d (typeCode x) = some x := typeSymOf_eq_some_iff.mpr ⟨h, rfl⟩

@[simp] theorem featSymOf_featCode (x : FeatureSymbol) : featSymOf (featCode x) = x := by cases x <;> rfl
@[simp] theorem featCode_featSymOf (r : BitVec 2) : featCode (featSymOf r) = r := by revert r; decide

/-- Settles O3: a table resolves exactly to the member with the raw number as its code, so two members with one code are what
one entry resolves to. -/
theorem tablesAgreeWithCodes : Obligations.TablesAgreeWithCodes := by
  refine ⟨fun d x x' hx hx' hcode => ?injective, fun _ _ => typeSymOf_typeCode, fun _ _ _ => typeSymOf_eq_some_iff.mp,
    fun _ _ => modeSymOf_modeCode, fun _ _ _ => modeSymOf_eq_some_iff.mp, featSymOf_featCode, featCode_featSymOf⟩
  case injective =>
    have hsome : some x = some x' := by rw [← typeSymOf_typeCode hx, hcode, typeSymOf_typeCode hx']
    exact Option.some.inj hsome

/-! ### The RESOLVE operations (R111 to R113) -/

/-- The entity-to-center mode table lists the symbols in the order of their ids (R28, R66). -/
theorem modeSymOf_entityToCenter (r : BitVec 2) : modeSymOf .entityToCenter r = some (modeOfId r) := by
  revert r; decide

/-- The feature table lists the symbols in the order of their ids (R32, R68). -/
theorem featSymOf_eq_featOfId (r : BitVec 2) : featSymOf r = featOfId r := by
  revert r; decide

/-- A response without a payload is the zero word (R72). -/
theorem payloadWord_empty : payloadWord {} = 0 := by decide

/-- The response that carries a mode symbol and nothing else. -/
theorem payloadWord_modeSym (x : ModeSymbol) :
    payloadWord { modeSym := some x } = putBits 32 (modeId x) ||| 0x0000000010 := by
  cases x <;> decide

/-- The response that carries a feature symbol and nothing else. -/
theorem payloadWord_featSym (x : FeatureSymbol) :
    payloadWord { featSym := some x } = putBits 37 (featId x) ||| 0x0000000040 := by
  cases x <;> decide

/-- Settles O24: RESOLVE_TYPE's payload is its table's entry, whose word is compared at each of the 16 raw numbers. -/
theorem resolveTypeResult : Obligations.ResolveTypeResult := by
  refine ⟨fun w h => ?decodes, fun s d raw => ?word⟩
  case decodes =>
    rw [decodeReq_resolveType h, reqB, setWidth_extract w (by decide)]
    rfl
  case word =>
    rw [exec_of_answerOf_ok (i := .resolveType d raw) rfl s]
    congr 2
    revert raw
    cases d <;> decide

/-- Settles O25: entity to center the symbol's id is the raw number, and the center-to-entity table is empty. -/
theorem resolveModeResult : Obligations.ResolveModeResult := by
  refine ⟨fun w h => ?decodes, fun s raw => ⟨?entityToCenter, ?centerToEntity⟩⟩
  case decodes =>
    rw [decodeReq_resolveMode h, reqA, setWidth_extract w (by decide)]
    rfl
  case entityToCenter =>
    rw [exec_of_answerOf_ok (i := .resolveMode .entityToCenter raw) rfl s, modeSymOf_entityToCenter, payloadWord_modeSym,
      modeId_modeOfId]
    rfl
  case centerToEntity =>
    rw [exec_of_answerOf_ok (i := .resolveMode .centerToEntity raw) rfl s, modeSymOf_centerToEntity, payloadWord_empty]

/-- Settles O26: the feature table resolves every raw number, to the symbol whose id it is. -/
theorem resolveFeatureResult : Obligations.ResolveFeatureResult := by
  refine ⟨fun w h => ?decodes, fun s raw => ?word⟩
  case decodes => rw [decodeReq_resolveFeature h, reqC, setWidth_extract w (by decide)]
  case word =>
    rw [exec_of_answerOf_ok (i := .resolveFeature raw) rfl s, featSymOf_eq_featOfId, payloadWord_featSym, featId_featOfId]
    rfl

/-- The raw numbers that resolve under each direction (R122). -/
theorem svBit_typeSymOf_entityToCenter (raw : BitVec 4) :
    svBit (typeSymOf .entityToCenter raw) = 1 ↔ raw = 0 ∨ raw = 2 ∨ raw = 4 := by
  revert raw; decide

theorem svBit_typeSymOf_centerToEntity (raw : BitVec 4) :
    svBit (typeSymOf .centerToEntity raw) = 1 ↔ raw = 0 ∨ raw = 1 ∨ raw = 2 ∨ raw = 4 ∨ raw = 6 ∨ raw = 8 := by
  revert raw; decide

/-- Settles O27: the two responses carry the entries of the two tables; at 2 and 4 the entries have different ids. -/
theorem directionIsolation : Obligations.DirectionIsolation := by
  intro s raw
  refine ⟨_, _, exec_of_answerOf_ok rfl s, exec_of_answerOf_ok rfl s, ?entityToCenter, ?centerToEntity, ?differ⟩
  case entityToCenter => rw [rspTypeSv_payloadWord, svBit_typeSymOf_entityToCenter]
  case centerToEntity => rw [rspTypeSv_payloadWord, svBit_typeSymOf_centerToEntity]
  case differ =>
    rw [rspTypeSym_payloadWord, rspTypeSym_payloadWord]
    rintro (rfl | rfl)
    · decide
    · decide

/-! ### The raw number of a member (R114) -/

/-- The raw number of a member, for all three sub-fields at once: its symbol's code or, with no symbol, its lane. -/
def memberRaw {S : Type} {k : Nat} (code : S → BitVec k) (m : Member S) : Lane :=
  m.sym.elim m.raw fun x => (code x).setWidth 8

theorem modeRaw_eq_memberRaw (m : Member ModeSymbol) : modeRaw m = memberRaw modeCode m := by
  unfold modeRaw memberRaw
  cases m.sym <;> rfl

theorem typeRaw_eq_memberRaw (m : Member TypeSymbol) : typeRaw m = memberRaw typeCode m := by
  unfold typeRaw memberRaw
  cases m.sym <;> rfl

theorem featureRaw_eq_memberRaw (m : Member FeatureSymbol) : featureRaw m = memberRaw featCode m := by
  unfold featureRaw memberRaw
  cases m.sym <;> rfl

section
variable {S : Type} {k : Nat} {code : S → BitVec k} {table : BitVec k → Option S}

/-- A number that fits `k` bits is the same number in a lane. -/
theorem setWidth_setWidth_of_lt {v : Lane} (h : v.toNat < 2 ^ k) : (v.setWidth k).setWidth 8 = v :=
  BitVec.eq_of_toNat_eq (by
    rw [BitVec.toNat_setWidth, BitVec.toNat_setWidth, Nat.mod_eq_of_lt h, Nat.mod_eq_of_lt v.isLt])

/-- A member whose symbol is its table's entry at its lane has that lane as its raw number. -/
theorem memberRaw_of_sym_eq_table (hcode : ∀ {r x}, table r = some x → code x = r) {m : Member S} (hr : m.raw.toNat < 2 ^ k)
    (hs : m.sym = table (m.raw.setWidth k)) : memberRaw code m = m.raw := by
  unfold memberRaw
  cases h : m.sym with
  | none => rfl
  | some x =>
    have hx : code x = m.raw.setWidth k := hcode (hs.symm.trans h)
    exact (congrArg _ hx).trans (setWidth_setWidth_of_lt hr)

/-- The table's entry at a member's raw number is the symbol that was supplied, if the table has it at its code. -/
theorem table_memberRaw (hk : k ≤ 8) {m : Member S} {x : S} (hs : m.sym = some x) (hx : table (code x) = some x) :
    table ((memberRaw code m).setWidth k) = some x := by
  simp [memberRaw, hs, BitVec.setWidth_setWidth_of_le _ hk, hx]

end

/-! ### ENCODE (R115) -/

/-- The validator accepts exactly the values whose supplied symbols are all members. -/
theorem foreignValue_eq_false_iff_forall (v : AttributeValue) : foreignValue v = false ↔
    (∀ x, v.mode.sym = some x → modeMember v.dir x = true) ∧ (∀ x, v.type.sym = some x → typeMember v.dir x = true) := by
  simp only [foreignValue_eq_false_iff, Option.all_eq_true]

/-- With no foreign symbol, ENCODE is PACK of the raw numbers. -/
theorem encodeResponse_of_not_foreign {v : AttributeValue} (h : foreignValue v = false) :
    encodeResponse v = packResponse (memberRaw modeCode v.mode) (memberRaw typeCode v.type) (memberRaw featCode v.feature) := by
  simp [encodeResponse, h, modeRaw_eq_memberRaw, typeRaw_eq_memberRaw, featureRaw_eq_memberRaw]

/-- What a success of ENCODE says of its value: no symbol is foreign, and the raw numbers fit and make the byte. -/
theorem encodeResponse_eq_ok_iff {v : AttributeValue} {p : Payload} : encodeResponse v = .ok p ↔
    foreignValue v = false ∧ (memberRaw modeCode v.mode).toNat < 4 ∧ (memberRaw typeCode v.type).toNat < 16 ∧
      (memberRaw featCode v.feature).toNat < 4 ∧
      p = { a := packByte (memberRaw modeCode v.mode) (memberRaw typeCode v.type) (memberRaw featCode v.feature) } := by
  cases hv : foreignValue v with
  | false => simp [encodeResponse_of_not_foreign hv, packResponse_eq_ok_iff]
  | true => simp [encodeResponse, hv]

/-- An operation that fails changes the response ports and the draw counter alone, and answers its error's status. -/
theorem exec_frame_of_answerOf_error {i : Instr} {e : ErrorKind} (h : answerOf i = .error e) (s : State) : ∃ x n,
    exec i s = .next { s with rspValid := true, rsp := x, draws := n } ∧ x.extractLsb' 0 2 = errorCode e := by
  rw [exec_eq_respond, h]
  obtain ⟨x, n, hr, hx⟩ := respond_error e s
  exact ⟨x, n, congrArg _ hr, hx⟩

/-- Settles O28: ENCODE fails in the validator, or is PACK of the raw numbers with PACK's two outcomes. -/
theorem encodeResult : Obligations.EncodeResult := by
  refine ⟨fun w h => decodeReq_encode h, fun s v => ?_⟩
  intro foreign m t f
  have hforeign : foreignValue v = true ↔ foreign := foreignValue_iff v
  have hpack (h : ¬foreign) : answerOf (.encode v) = packResponse m t f :=
    encodeResponse_of_not_foreign (Bool.eq_false_iff.mpr (mt hforeign.mp h))
  refine ⟨fun h => ?invalid, fun h hrange => ?outOfRange, fun h hm ht hf => ?fits⟩
  case invalid =>
    rcases encodeResponse_cases v with ⟨-, he⟩ | ⟨hv, -⟩
    · exact exec_frame_of_answerOf_error (i := .encode v) he s
    · simp [hforeign.mpr h] at hv
  case outOfRange =>
    rcases packResponse_cases m t f with ⟨hm, ht, hf, -⟩ | ⟨-, he⟩
    · omega
    · exact exec_frame_of_answerOf_error ((hpack h).trans he) s
  case fits =>
    rw [exec_of_answerOf_ok ((hpack h).trans (packResponse_ok hm ht hf)) s, payloadWord_byte, packByte_eq_shifts]
    rfl

/-- Settles O29: ENCODE's answer rests on what it reads of its value, and `exec` responds with the answer. -/
theorem encodeIgnoresLaneBesideSymbol : Obligations.EncodeIgnoresLaneBesideSymbol := by
  intro s v v' hd hm ht hf hmr htr hfr
  simp only [exec_eq_respond, answerOf, encodeResponse_eq_of_read hd hm ht hf hmr htr hfr]

/-- Settles O30: the two operations have one answer, and `exec` responds with the answer. -/
theorem encodeOfRawNumbersIsPack : Obligations.EncodeOfRawNumbersIsPack := by
  intro s d a b c
  simp only [exec_eq_respond, answerOf, encodeResponse_raw]

/-! ### DECODE (R116, R118) -/

/-- DECODE's payload (R116). -/
def decodePayload (d : Direction) (b : Byte) : Payload where
  dir := dirCode d
  a := extractSub .mode b
  b := extractSub .type b
  c := extractSub .feature b
  modeSym := modeSymOf d (byteMode b)
  typeSym := typeSymOf d (byteType b)
  featSym := some (featSymOf (byteFeature b))

/-- DECODE never fails (R117). -/
theorem decodeResponse_eq_ok (d : Direction) (b : Byte) : decodeResponse d b = .ok (decodePayload d b) := rfl

theorem exec_decode (d : Direction) (b : Byte) (s : State) :
    exec (.decode d b) s = .next { s with rspValid := true, rsp := payloadWord (decodePayload d b) } :=
  exec_of_answerOf_ok (i := .decode d b) (decodeResponse_eq_ok d b) s

/-- The value of three raw numbers: each symbol as the direction's table gives it (R33). -/
def tableValue (d : Direction) (m t f : Lane) : AttributeValue where
  dir := d
  mode := ⟨m, modeSymOf d (m.setWidth 2)⟩
  type := ⟨t, typeSymOf d (t.setWidth 4)⟩
  feature := ⟨f, some (featSymOf (f.setWidth 2))⟩

/-- The value that a DECODE response carries: UNPACK's numbers and their symbols. -/
theorem rspValue_decodePayload (d : Direction) (b : Byte) : rspValue (payloadWord (decodePayload d b)) =
    tableValue d (extractSub .mode b) (extractSub .type b) (extractSub .feature b) := by
  rw [rspValue_payloadWord, decodePayload, dirOfCode_dirCode]
  rfl

theorem tableValue_wellFormed (d : Direction) {m t f : Lane} (hm : m.toNat < 4) (ht : t.toNat < 16) (hf : f.toNat < 4) :
    (tableValue d m t f).wellFormed = true := by
  simp [AttributeValue.wellFormed, tableValue, hm, ht, hf]

/-- Settles O34: the value carried is that of UNPACK's numbers, which are in range. -/
theorem decodedValueWellFormed : Obligations.DecodedValueWellFormed := by
  intro s d b
  refine ⟨_, exec_decode d b s, ?_⟩
  rw [rspValue_decodePayload]
  exact ⟨rfl, tableValue_wellFormed d (extractSub_lt .mode b) (extractSub_lt .type b) (extractSub_lt .feature b)⟩

/-- UNPACK's numbers as indices of the tables are bit fields of the byte (R45, R90). -/
theorem byteMode_eq_extract (b : Byte) : byteMode b = b.extractLsb' 0 2 := by revert b; decide
theorem byteType_eq_extract (b : Byte) : byteType b = b.extractLsb' 2 4 := by revert b; decide
theorem byteFeature_eq_extract (b : Byte) : byteFeature b = b.extractLsb' 6 2 := by revert b; decide

/-- Settles O33: DECODE responds with its payload, and each field of the payload's word is read back. -/
theorem decodeResult : Obligations.DecodeResult := by
  refine ⟨fun w h => decodeReq_decode h, fun s d b => ⟨payloadWord (decodePayload d b), exec_decode d b s,
    rspStatus_payloadWord _, extract_two_payloadWord _, extract_seven_portWord .., extract_thirty_nine_portWord .., ?dir,
    ?a, ?b, ?c, ?mode, ?type, rspFeatSv_payloadWord _, ?feature⟩⟩
  case dir =>
    refine (rspDir_payloadWord _).trans ?_
    cases d <;> rfl
  case a => exact (rspA_payloadWord _).trans (BitVec.ushiftRight_zero _)
  case b => exact rspB_payloadWord _
  case c => exact rspC_payloadWord _
  case mode =>
    have hsv : rspModeSv (payloadWord (decodePayload d b)) = svBit (modeSymOf d (byteMode b)) := rspModeSv_payloadWord _
    have hid : rspModeSym (payloadWord (decodePayload d b)) = idBits modeId (modeSymOf d (byteMode b)) :=
      rspModeSym_payloadWord _
    rw [← byteMode_eq_extract]
    generalize modeSymOf d (byteMode b) = sym at hsv hid ⊢
    cases sym with
    | none => exact ⟨hsv, hid⟩
    | some y => exact ⟨hsv, hid⟩
  case type =>
    have hsv : rspTypeSv (payloadWord (decodePayload d b)) = svBit (typeSymOf d (byteType b)) := rspTypeSv_payloadWord _
    have hid : rspTypeSym (payloadWord (decodePayload d b)) = idBits typeId (typeSymOf d (byteType b)) :=
      rspTypeSym_payloadWord _
    rw [← byteType_eq_extract]
    generalize typeSymOf d (byteType b) = sym at hsv hid ⊢
    cases sym with
    | none => exact ⟨hsv, hid⟩
    | some y => exact ⟨hsv, hid⟩
  case feature =>
    rw [← byteFeature_eq_extract]
    exact rspFeatSym_payloadWord _

/-! ### DECODE and ENCODE as inverses (R119, R120) -/

theorem answer_encode {w : ReqWord} (h : reqOp w = 5) : answer w = encodeResponse (reqValue w) :=
  answer_of_decodeReq_ok (decodeReq_encode h)

theorem answer_decode {w : ReqWord} (h : reqOp w = 6) : answer w = .ok (decodePayload (dirOfCode (reqDir w)) (reqA w)) :=
  answer_of_decodeReq_ok (decodeReq_decode h)

/-- With `op` set to 5, a successful response is an ENCODE of the value it carries (R80). -/
theorem answer_payloadWord_or_five (p : Payload) :
    answer (payloadWord p ||| 5) = encodeResponse (rspValue (payloadWord p)) := by
  have hop : reqOp (payloadWord p ||| 5) = 5 := reqOp_payloadWord_or p 5
  have hvalue : reqValue (payloadWord p ||| 5) = rspValue (payloadWord p) :=
    (reqValue_payloadWord_or p 5).trans (rspValue_payloadWord p).symm
  rw [answer_encode hop, hvalue]

/-- The symbols of a direction's tables are never foreign to it. -/
theorem foreignValue_tableValue (d : Direction) (m t f : Lane) : foreignValue (tableValue d m t f) = false :=
  (foreignValue_eq_false_iff_forall _).mpr
    ⟨fun _ h => (modeSymOf_eq_some_iff.mp h).1, fun _ h => (typeSymOf_eq_some_iff.mp h).1⟩

/-- ENCODE of the value of three raw numbers in range is PACK of the numbers. -/
theorem encodeResponse_tableValue (d : Direction) {m t f : Lane} (hm : m.toNat < 4) (ht : t.toNat < 16) (hf : f.toNat < 4) :
    encodeResponse (tableValue d m t f) = packResponse m t f := by
  have hmode : memberRaw modeCode (tableValue d m t f).mode = m :=
    memberRaw_of_sym_eq_table (fun h => (modeSymOf_eq_some_iff.mp h).2) hm rfl
  have htype : memberRaw typeCode (tableValue d m t f).type = t :=
    memberRaw_of_sym_eq_table (fun h => (typeSymOf_eq_some_iff.mp h).2) ht rfl
  have hfeature : memberRaw featCode (tableValue d m t f).feature = f :=
    memberRaw_of_sym_eq_table (table := fun r => some (featSymOf r))
      (fun h => Option.some.inj h ▸ featCode_featSymOf _) hf rfl
  rw [encodeResponse_of_not_foreign (foreignValue_tableValue d m t f), hmode, htype, hfeature]

/-- ENCODE of the value DECODE gives succeeds with the byte decoded (R119). -/
theorem encodeResponse_rspValue_decodePayload (d : Direction) (b : Byte) :
    encodeResponse (rspValue (payloadWord (decodePayload d b))) = .ok { a := b } := by
  rw [rspValue_decodePayload,
    encodeResponse_tableValue d (extractSub_lt .mode b) (extractSub_lt .type b) (extractSub_lt .feature b),
    packResponse_extractSub]

/-- Settles O35: the DECODE response with `op` 5 is an ENCODE of the value it carries, whose byte is the one decoded. -/
theorem encodeAfterDecodeGivesByte : Obligations.EncodeAfterDecodeGivesByte := by
  intro s w rest hs hop
  refine ⟨_, step_of_answer_ok hs (answer_decode hop), rspStatus_payloadWord _, fun s' rest' hs' => ?_⟩
  have hback := (answer_payloadWord_or_five _).trans (encodeResponse_rspValue_decodePayload (dirOfCode (reqDir w)) (reqA w))
  exact ⟨_, step_of_answer_ok hs' hback, payloadWord_byte _⟩

/-- DECODE of PACK's byte gives the value of the numbers packed. -/
theorem rspValue_decodePayload_packByte (d : Direction) {m t f : Lane} (hm : m.toNat < 4) (ht : t.toNat < 16)
    (hf : f.toNat < 4) : rspValue (payloadWord (decodePayload d (packByte m t f))) = tableValue d m t f := by
  have hnumbers := unpackResponse_packByte hm ht hf
  simp only [unpackResponse, Response.ok.injEq, Payload.mk.injEq] at hnumbers
  obtain ⟨-, hmode, htype, hfeature, -⟩ := hnumbers
  rw [rspValue_decodePayload, hmode, htype, hfeature]

/-- Settles O36: a success of ENCODE is the byte of raw numbers in range, DECODE of it is the tables' value of these numbers, and
a member's code resolves to the member. -/
theorem decodeAfterEncodeGivesCanonicalValue : Obligations.DecodeAfterEncodeGivesCanonicalValue := by
  intro s t v ht h0 s'
  cases (exec_eq_respond (.encode v) s).symm.trans ht
  obtain ⟨p, hp, hx⟩ := exists_payload_of_admits (respond_admits _ s) h0
  obtain ⟨hforeign, hmr, htr, hfr, rfl⟩ := encodeResponse_eq_ok_iff.mp hp
  obtain ⟨hmode, htype⟩ := (foreignValue_eq_false_iff_forall v).mp hforeign
  refine ⟨_, exec_decode _ _ s', ?_⟩
  rw [hx, rspA_payloadWord, rspValue_decodePayload_packByte v.dir hmr htr hfr]
  refine ⟨tableValue_wellFormed v.dir hmr htr hfr, rfl, rfl, rfl, rfl, fun x h => ?mode, fun x h => ?type,
    fun x h => ?feature⟩
  case mode => exact table_memberRaw (by decide) h (modeSymOf_modeCode (hmode x h))
  case type => exact table_memberRaw (by decide) h (typeSymOf_typeCode (htype x h))
  case feature =>
    exact table_memberRaw (table := fun r => some (featSymOf r)) (by decide) h (congrArg some (featSymOf_featCode x))

end Sys2Proof.Machine
end

section
/-! The family of spec/60_exceptions.md: what causes each error, and the operations that never fail (R141, R142, R146, R150). -/

namespace Sys2Proof.Machine

/-! ### The status of an error (R71, R140) -/

theorem errorCode_injective {e e' : ErrorKind} (h : errorCode e = errorCode e') : e = e' := by
  revert h
  cases e <;> cases e' <;> decide

/-- The status on the port tells which error was answered, and that one was. -/
theorem rspStatus_respond_eq_errorCode_iff (r : Response) (e : ErrorKind) (s : State) :
    rspStatus (respond r s).rsp = errorCode e ↔ r = .error e := by
  cases r with
  | ok p =>
    have hok : rspStatus (respond (.ok p) s).rsp = okCode := rspStatus_payloadWord p
    rw [hok]
    exact iff_of_false (Ne.symm (errorCode_ne_ok e)) nofun
  | error e' =>
    have hstatus : rspStatus (respond (.error e') s).rsp = errorCode e' := rspStatus_errorWord ..
    rw [hstatus, Response.error.injEq]
    exact ⟨errorCode_injective, congrArg errorCode⟩

/-- An operation's status is an error's code exactly when its answer is that error. -/
theorem rspStatus_eq_errorCode_iff_of_exec {i : Instr} {s t : State} (h : exec i s = .next t) (e : ErrorKind) :
    rspStatus t.rsp = errorCode e ↔ answerOf i = .error e := by
  cases (exec_eq_respond i s).symm.trans h
  exact rspStatus_respond_eq_errorCode_iff (answerOf i) e s

/-! ### Which operations can fail (R150) -/

/-- Every operation but PACK and ENCODE succeeds on all operands. -/
theorem exists_answerOf_ok_of_opCode {i : Instr} (hpack : opCode i ≠ 0) (hencode : opCode i ≠ 5) :
    ∃ p, answerOf i = .ok p := by
  cases i with
  | pack => exact absurd rfl hpack
  | encode => exact absurd rfl hencode
  | unpack => exact ⟨_, rfl⟩
  | resolveType => exact ⟨_, rfl⟩
  | resolveMode => exact ⟨_, rfl⟩
  | resolveFeature => exact ⟨_, rfl⟩
  | decode => exact ⟨_, rfl⟩

/-- An error is PACK's or ENCODE's. -/
theorem answerOf_eq_error_iff {i : Instr} {e : ErrorKind} : answerOf i = .error e ↔
    (∃ m t f, i = .pack m t f ∧ packResponse m t f = .error e) ∨ (∃ v, i = .encode v ∧ encodeResponse v = .error e) := by
  constructor
  · intro h
    cases i with
    | pack m t f => exact .inl ⟨m, t, f, rfl, h⟩
    | encode v => exact .inr ⟨v, rfl, h⟩
    | unpack => cases h
    | resolveType => cases h
    | resolveMode => cases h
    | resolveFeature => cases h
    | decode => cases h
  · rintro (⟨m, t, f, rfl, h⟩ | ⟨v, rfl, h⟩)
    · exact h
    · exact h

/-- PACK's only error is OutOfRange, on numbers that do not fit (R91). -/
theorem packResponse_eq_error_iff {m t f : Lane} {e : ErrorKind} : packResponse m t f = .error e ↔
    e = .outOfRange ∧ (4 ≤ m.toNat ∨ 16 ≤ t.toNat ∨ 4 ≤ f.toNat) := by
  rcases packResponse_cases m t f with ⟨hm, ht, hf, hok⟩ | ⟨hrange, he⟩
  · rw [hok]
    exact iff_of_false nofun (by omega)
  · rw [he, Response.error.injEq, and_iff_left hrange]
    exact eq_comm

/-- Settles O37: a word of these codes decodes to an operation that is neither PACK nor ENCODE. -/
theorem readPathNeverFails : Obligations.ReadPathNeverFails := by
  intro s w rest hs hop
  obtain ⟨hpack, hencode, hillegal⟩ : reqOp w ≠ 0 ∧ reqOp w ≠ 5 ∧ reqOp w ≠ 7 := by
    rcases hop with h | h | h | h | h <;> simp [reqOp, h]
  rcases decodeReq_cases w with ⟨i, hd, hi⟩ | ⟨-, h7⟩
  · obtain ⟨p, hp⟩ := exists_answerOf_ok_of_opCode (hi ▸ hpack) (hi ▸ hencode)
    exact ⟨_, step_of_answer_ok hs ((answer_of_decodeReq_ok hd).trans hp), rfl, rspStatus_payloadWord p⟩
  · exact absurd h7 hillegal

/-! ### InvalidForDirection (R142) -/

/-- ENCODE answers InvalidForDirection exactly on the validator's word (R115 step 1). -/
theorem encodeResponse_eq_invalidForDirection_iff (v : AttributeValue) :
    encodeResponse v = .error .invalidForDirection ↔ foreignValue v = true := by
  rcases encodeResponse_cases v with ⟨hv, he⟩ | ⟨hv, he⟩
  · exact iff_of_true he hv
  · simp [hv, he, packResponse_eq_error_iff]

/-- R142's list for the entity-to-center direction. -/
theorem typeMember_entityToCenter_eq_false_iff (x : TypeSymbol) : typeMember .entityToCenter x = false ↔
    x = .smeDeliveryReceipt ∨ x = .smeDeliveryAck ∨ x = .smeUserAck ∨ x = .conversationAbort ∨ x = .intermediate := by
  cases x <;> decide

/-- R142's list for the center-to-entity direction. -/
theorem typeMember_centerToEntity_eq_false_iff (x : TypeSymbol) : typeMember .centerToEntity x = false ↔
    x = .esmeDeliveryAck ∨ x = .esmeUserAck := by
  cases x <;> decide

/-- The foreign symbols by name (R142). -/
theorem foreignValue_iff_lists (v : AttributeValue) : foreignValue v = true ↔
    (v.dir = .entityToCenter ∧ (v.type.sym = some .smeDeliveryReceipt ∨ v.type.sym = some .smeDeliveryAck ∨
      v.type.sym = some .smeUserAck ∨ v.type.sym = some .conversationAbort ∨ v.type.sym = some .intermediate)) ∨
    (v.dir = .centerToEntity ∧ (v.type.sym = some .esmeDeliveryAck ∨ v.type.sym = some .esmeUserAck ∨
      ∃ x, v.mode.sym = some x)) := by
  rw [foreignValue_iff]
  cases hd : v.dir with
  | entityToCenter => simp [typeMember_entityToCenter_eq_false_iff, and_or_left, exists_or]
  | centerToEntity =>
    simp [typeMember_centerToEntity_eq_false_iff, and_or_left, exists_or, or_comm, or_assoc]

/-- Settles O31: status 2 is InvalidForDirection's alone, PACK never answers it, and ENCODE does on the validator's word. -/
theorem invalidForDirectionCauses : Obligations.InvalidForDirectionCauses := by
  intro i s t ht
  refine (rspStatus_eq_errorCode_iff_of_exec ht .invalidForDirection).trans ?_
  simp only [answerOf_eq_error_iff, packResponse_eq_error_iff, encodeResponse_eq_invalidForDirection_iff,
    foreignValue_iff_lists, reduceCtorEq, false_and, and_false, exists_false, false_or]

/-! ### OutOfRange (R141, R146) -/

/-- A member's raw number is too large for its sub-field only if it is a lane: a symbol's code fits. -/
theorem le_toNat_memberRaw_iff {S : Type} {k : Nat} {code : S → BitVec k} (hk : k ≤ 8) (m : Member S) :
    2 ^ k ≤ (memberRaw code m).toNat ↔ m.sym = none ∧ 2 ^ k ≤ m.raw.toNat := by
  unfold memberRaw
  cases m.sym with
  | none => exact (and_iff_right rfl).symm
  | some x =>
    have hfits : ((code x).setWidth 8).toNat < 2 ^ k := by
      rw [BitVec.toNat_setWidth_of_le hk]
      exact (code x).isLt
    exact iff_of_false (Nat.not_le.mpr hfits) nofun

/-- ENCODE answers OutOfRange exactly when the validator accepts and a lane used directly does not fit (R115, R146). -/
theorem encodeResponse_eq_outOfRange_iff (v : AttributeValue) : encodeResponse v = .error .outOfRange ↔
    foreignValue v = false ∧ ((v.mode.sym = none ∧ 4 ≤ v.mode.raw.toNat) ∨ (v.type.sym = none ∧ 16 ≤ v.type.raw.toNat) ∨
      (v.feature.sym = none ∧ 4 ≤ v.feature.raw.toNat)) := by
  have hmode := le_toNat_memberRaw_iff (code := modeCode) (by decide) v.mode
  have htype := le_toNat_memberRaw_iff (code := typeCode) (by decide) v.type
  have hfeature := le_toNat_memberRaw_iff (code := featCode) (by decide) v.feature
  cases hv : foreignValue v with
  | true => simp [(encodeResponse_eq_invalidForDirection_iff v).mpr hv]
  | false =>
    rw [encodeResponse_of_not_foreign hv, packResponse_eq_error_iff, and_iff_right rfl, and_iff_right rfl]
    exact or_congr hmode (or_congr htype hfeature)

/-- Settles O32: status 1 is OutOfRange's alone, which PACK answers on lanes that do not fit and ENCODE after its validator. -/
theorem outOfRangeCauses : Obligations.OutOfRangeCauses := by
  intro i s t ht
  refine (rspStatus_eq_errorCode_iff_of_exec ht .outOfRange).trans ?_
  simp only [answerOf_eq_error_iff, packResponse_eq_error_iff, encodeResponse_eq_outOfRange_iff,
    foreignValue_eq_false_iff_forall, true_and, and_assoc]

end Sys2Proof.Machine
end

section
/-! The family of spec/70_reset_and_hazards.md: the ports after power-up, a step without a request, and the responses of a run
(R170, R172, R178). -/

namespace Sys2Proof.Machine

/-! ### A step without a request (R172) -/

/-- Settles O13: both steps idle on the state that the host's drive, or its having none left, makes. -/
theorem noRequestNoResponse : Obligations.NoRequestNoResponse :=
  ⟨fun _ _ _ hs => ⟨_, _, step_no_request hs⟩, fun _ hs => ⟨_, _, step_host_done hs⟩⟩

/-! ### Power-up (R170) -/

/-- Ports on which no request and no response are valid are settled. -/
theorem portsSettled_of_not_valid {s : State} (hreq : s.reqValid = false) (hrsp : s.rspValid = false) : PortsSettled s :=
  ⟨hrsp.trans hreq.symm, fun h => absurd h (by simp [hreq])⟩

/-- Settles O15: at reset neither port is valid and the host's list is empty, so the ports are settled. -/
theorem resetPortsSettled : Obligations.ResetPortsSettled :=
  ⟨portsSettled_of_not_valid rfl rfl, rfl, rfl, rfl⟩

/-! ### The requests and the responses of a run (R178) -/

@[simp] theorem requestsOf_cons_request (w : ReqWord) (ds : List Drive) :
    requestsOf (⟨true, w⟩ :: ds) = w :: requestsOf ds := rfl

@[simp] theorem requestsOf_cons_no_request (w : ReqWord) (ds : List Drive) :
    requestsOf (⟨false, w⟩ :: ds) = requestsOf ds := rfl

/-- A step with a valid response contributes that response to the run. -/
theorem responsesOf_succ_of_valid {s t : State} (hs : step s = .next t) (hv : t.rspValid = true) (k : Nat) :
    responsesOf (k + 1) s = t.rsp :: responsesOf k t := by
  simp [responsesOf, hs, hv]

/-- A step without a valid response contributes nothing to the run. -/
theorem responsesOf_succ_of_not_valid {s t : State} (hs : step s = .next t) (hv : t.rspValid = false) (k : Nat) :
    responsesOf (k + 1) s = responsesOf k t := by
  simp [responsesOf, hs, hv]

/-- Once the host has nothing left to drive, no valid response follows. -/
theorem responsesOf_host_done (k : Nat) {s : State} (h : s.host = []) : responsesOf k s = [] := by
  induction k generalizing s with
  | zero => rfl
  | succ k ih =>
    rw [responsesOf_succ_of_not_valid (step_host_done h) (idle_rspValid _)]
    exact ih ((idle_host _).trans h)

/-- The run over a given list of the host's drives, from any state with that list: each step takes one drive, and answers it when it
presents a request. -/
theorem responsesOf_admitted (drives : List Drive) (k : Nat) {s : State} (h : s.host = drives) :
    List.Forall₂ Admits ((requestsOf drives).map answer) (responsesOf (drives.length + k) s) := by
  induction drives generalizing s with
  | nil =>
    rw [responsesOf_host_done _ h]
    exact .nil
  | cons d rest ih =>
    rw [List.length_cons, Nat.add_right_comm]
    obtain ⟨_ | _, w⟩ := d
    case false =>
      rw [requestsOf_cons_no_request, responsesOf_succ_of_not_valid (step_no_request h) (idle_rspValid _)]
      exact ih (idle_host _)
    case true =>
      rw [requestsOf_cons_request, responsesOf_succ_of_valid (step_request h) (respond_rspValid _ _)]
      exact .cons (respond_admits _ _) (ih (respond_host _ _))

/-- Settles O17: the run over the state's own list, by induction on the drives that are left. -/
theorem runAnswersEachRequest : Obligations.RunAnswersEachRequest :=
  fun s k => responsesOf_admitted s.host k rfl

end Sys2Proof.Machine
end
